-- ==== Sys2Proof/Word.lean ====
section
/-! DEFINITION. The word types of the block. Every value is an unsigned integer of a stated width
(00_scope.md R8); the widths are those of 10_state.md R20. -/

namespace Sys2Proof

/-- A wire byte, a decoded byte or a byte field of a frame. -/
abbrev Byte := BitVec 8

/-- The 4-bit unit one codeword carries (10_state.md R20). -/
abbrev Nibble := BitVec 4

/-- Three parity and four data bits, layout CW7 of 30_encoding.md R71 (10_state.md R20). -/
abbrev Codeword := BitVec 7

/-- A node address, 0x00 to 0x7F, 0x7F being the broadcast address (10_state.md R20, 20_memory.md R60). -/
abbrev Addr := BitVec 7

end Sys2Proof
end

