-- ==== Sys2Proof/Config.lean ====
section
/-! DEFINITION. The implementation parameters of 00_scope.md R6, as one record of plain data. They are
constant for the life of the block (10_state.md R24); `Machine.State` carries the record so that one `step`
serves every configuration (log 1). Which settings R7 allows is `Config.valid` in Machine/Params.lean. -/

namespace Sys2Proof

/-- `NIBBLE_BIT_ORDER`: which bit of a nibble is d1 (30_encoding.md R79). -/
inductive NibbleBitOrder where
  | lsbFirst
  | msbFirst
  deriving DecidableEq, Repr

/-- `BM_TIMEOUT_POLICY`: what `RX_TIMEOUT` does to the deframer (42_byte_marker_codec.md R125). -/
inductive TimeoutPolicy where
  | reset
  | retain
  deriving DecidableEq, Repr

/-- The parameters of 00_scope.md R6 that are not constants of the source and not the reset input
`LOCAL_ADDR`. -/
structure Config where
  /-- `MARKER`, compared by the deframer only. -/
  marker : Byte
  /-- `START`, compared by the frame codec only. -/
  start : Byte
  /-- `STOP`, compared by the frame codec only. -/
  stop : Byte
  /-- `MAX_RETRIES`, 0 to 255. -/
  maxRetries : Nat
  /-- `RETRY_TIMEOUT`, in ticks. -/
  retryTimeout : Nat
  /-- `IDLE_TIMEOUT`, in ticks. -/
  idleTimeout : Nat
  /-- `ACK_ON_DATA`. -/
  ackOnData : Bool
  /-- `N_CONN`, the number of connection slots. -/
  nConn : Nat
  /-- `TS_W`, the width of a timestamp in bits. -/
  tsW : Nat
  /-- `NIBBLE_BIT_ORDER`. -/
  nibbleBitOrder : NibbleBitOrder
  /-- `BM_TIMEOUT_POLICY`. -/
  bmTimeoutPolicy : TimeoutPolicy
  deriving DecidableEq, Repr

/-- CFG_A of 95_test_vectors.md: the illustrative setting the spec's vectors use, with `TS_W` = 16, which
the vectors leave open. DESIGN CHOICE (log 1): unsafe for a claim about `State.reset` that rests on one of
these values; no statement of this package does. -/
def Config.cfgA : Config :=
  { marker := 0xFF, start := 0x02, stop := 0x03, maxRetries := 3, retryTimeout := 10, idleTimeout := 100,
    ackOnData := false, nConn := 1, tsW := 16, nibbleBitOrder := .lsbFirst, bmTimeoutPolicy := .reset }

/-- CFG_B of 95_test_vectors.md: one shared value for the three delimiters, which is also a codeword byte. -/
def Config.cfgB : Config :=
  { Config.cfgA with marker := 0x55, start := 0x55, stop := 0x55 }

end Sys2Proof
end

