-- ==== Sys2Proof/Syntax.lean ====
section
/-! DEFINITION. The operations of the block, one constructor for each of the 26 rows of
spec/opcode_table.json, with the data types their operands have (10_state.md R20), and the interfaces an
encoded operation can be presented on (30_encoding.md R70, R90). -/

namespace Sys2Proof

/-- The five frame types (10_state.md R20, 30_encoding.md R76). -/
inductive FrameType where
  | data
  | link
  | unlink
  | ack
  | retryRequest
  deriving DecidableEq, Repr

/-- A transmit-side frame (10_state.md R20). It is valid when its payload has at most 255 bytes
(`Frame.valid`). -/
structure Frame where
  receiver : Addr
  sender : Addr
  type : FrameType
  payload : List Byte
  deriving DecidableEq, Repr

/-- What DESERIALIZE returns: the raw bytes of the fields, not yet checked to be an address or a type
(10_state.md R20). -/
structure RxFrame where
  receiver8 : Byte
  sender8 : Byte
  type8 : Byte
  payload : List Byte
  deriving DecidableEq, Repr

/-- The operations, in the order of spec/opcode_table.json. `now` is no operand: it is the input sampled
with the event (00_scope.md R16), `Machine.State.now`. A slot index `i` is below `N_CONN`. -/
inductive Instr where
  /-- HENC, 40_hamming_encoder.md R100. -/
  | henc (n : Nibble)
  /-- HDEC, 41_hamming_decoder.md R110. -/
  | hdec (c : Codeword)
  /-- BM_ENC on a byte sequence (42_byte_marker_codec.md R121); on one byte it is BM_ENC1 (R120). -/
  | bmEnc (bs : List Byte)
  /-- BM_RXBYTE, the event `RX_BYTE(b)`, 42_byte_marker_codec.md R122 to R124. -/
  | bmRxByte (b : Byte)
  /-- BM_RXTIMEOUT, the event `RX_TIMEOUT`, 42_byte_marker_codec.md R125. -/
  | bmRxTimeout
  /-- SERIALIZE, 43_frame_serializer.md R140. -/
  | serialize (f : Frame)
  /-- Emit, 43_frame_serializer.md R141. -/
  | emit (f : Frame)
  /-- DESERIALIZE, 44_frame_deserializer.md R150. -/
  | deserialize (buf : List Byte)
  /-- FA_PUSH, 44_frame_deserializer.md R151. -/
  | faPush (d : Byte)
  /-- ACCEPT, 44_frame_deserializer.md R152. -/
  | accept (f : RxFrame)
  /-- ROUTE, 44_frame_deserializer.md R153. -/
  | route (f : RxFrame)
  /-- CONN_RX, 45_connection_fsm.md R171. -/
  | connRx (i : Nat) (f : RxFrame)
  /-- CMD_CONNECT, 45_connection_fsm.md R172. -/
  | cmdConnect (r : Addr)
  /-- CMD_DISCONNECT, 45_connection_fsm.md R173. -/
  | cmdDisconnect (r : Addr)
  /-- CMD_SEND, 45_connection_fsm.md R174. -/
  | cmdSend (r : Addr) (payload : List Byte)
  /-- CMD_ABORT, 45_connection_fsm.md R175. -/
  | cmdAbort (r : Addr)
  /-- RX_DATA, 45_connection_fsm.md R179. -/
  | rxData (i : Nat) (f : RxFrame)
  /-- RX_LINK, 45_connection_fsm.md R176. -/
  | rxLink (i : Nat) (f : RxFrame)
  /-- RX_UNLINK, 45_connection_fsm.md R178. -/
  | rxUnlink (i : Nat) (f : RxFrame)
  /-- RX_ACK, 45_connection_fsm.md R177. -/
  | rxAck (i : Nat) (f : RxFrame)
  /-- RX_RETRY_REQUEST, 45_connection_fsm.md R180. -/
  | rxRetryRequest (i : Nat) (f : RxFrame)
  /-- RX_RESERVED, 45_connection_fsm.md R181. -/
  | rxReserved (i : Nat) (f : RxFrame)
  /-- TICK, 45_connection_fsm.md R183. -/
  | tick
  /-- RETRY, 45_connection_fsm.md R184. -/
  | retry (i : Nat)
  /-- GIVE_UP, 45_connection_fsm.md R185. -/
  | giveUp (i : Nat)
  /-- IDLE_DROP, 45_connection_fsm.md R186. -/
  | idleDrop (i : Nat)
  deriving DecidableEq, Repr

/-- Where a word is presented. `rxp`, `cmd` and `tick` are the ports of the three agents (30_encoding.md R84,
R86). The others are the operations of the table that no agent triggers (R90), each on an interface of its
own so that it can be run by itself: DESIGN CHOICE (log 9), safe. -/
inductive Port where
  | rxp
  | cmd
  | tick
  | henc
  | hdec
  | bmEnc
  | serialize
  | emit
  | deserialize
  | faPush
  | accept
  | route
  | connRx
  /-- The six inbound frame handlers: the TYPE byte of the frame selects one (30_encoding.md R76, R90). -/
  | rxFrame
  | retry
  | giveUp
  | idleDrop
  deriving DecidableEq, Repr

/-- An encoded operation: the interface, the slot index that goes beside the word to the operations that
have one (0 for the others), and the word's bytes, the most significant first (30_encoding.md R73, R76). -/
structure Presented where
  port : Port
  slot : Nat
  bits : List Byte
  deriving DecidableEq, Repr

end Sys2Proof
end

