-- ==== Sys2Proof/Machine/State.lean ====
section
/-! DEFINITION. The machine's state (10_state.md R23 to R27), its output streams (00_scope.md R13), the events
it takes (R14), the closed list of its failures (60_exceptions.md R230), and the state after reset
(10_state.md R40). INVENTORY.md '## State' lists every field with its rule. -/

namespace Sys2Proof.Machine

/-- The deframer's position in a unit (10_state.md R25): SCAN, CW, END. -/
inductive BmPos where
  | scan
  | cw
  | close
  deriving DecidableEq, Repr

/-- The state of a connection slot (10_state.md R20, 45_connection_fsm.md R170). -/
inductive ConnState where
  | disconnected
  | connecting
  | connected
  | disconnecting
  deriving DecidableEq, Repr

/-- One connection slot `conn[i]` (10_state.md R27). -/
structure Slot where
  state : ConnState
  /-- `remote`, meaningful only while `state` is not DISCONNECTED. -/
  remote : Addr
  /-- `last_activity`: a `TS_W`-bit timestamp, held as a number because its width is a parameter (log 7). -/
  lastActivity : Nat
  /-- `retry_count`, 8 bits. -/
  retryCount : BitVec 8
  deriving DecidableEq, Repr

/-- The named failures, "closed over these seven" (60_exceptions.md R230). None stops the block. -/
inductive Failure where
  | frameTooShort
  | invalidDelimiters
  | lengthMismatch
  | notConnected
  | alreadyPending
  | alreadyConnected
  | noFreeSlot
  deriving DecidableEq, Repr

/-- The code of `Status`: OK or the failure of a host command (30_encoding.md R85). -/
inductive Status where
  | ok
  | failed (f : Failure)
  deriving DecidableEq, Repr

/-- The result of DESERIALIZE: `ok(RxFrame)` or `fail(failure)` (44_frame_deserializer.md R150). -/
inductive Deserialized where
  | ok (f : RxFrame)
  | fail (e : Failure)
  deriving DecidableEq, Repr

/-- One item of the output streams (00_scope.md R13). -/
inductive Output where
  /-- `Tx(bytes)`: wire bytes appended contiguously to the transmit stream (10_state.md R35). -/
  | tx (wire : List Byte)
  /-- `Deliver(sender, payload)` (10_state.md R37). -/
  | deliver (sender : Addr) (payload : List Byte)
  /-- `Notify(i, remote, old, new)` (10_state.md R38). -/
  | notify (slot : Nat) (remote : Addr) (old new : ConnState)
  /-- `Status(code)` (10_state.md R36). -/
  | status (s : Status)
  /-- `FrameErr(code)` (10_state.md R39). -/
  | frameErr (e : Failure)
  deriving DecidableEq, Repr

/-- What a pure function returned when it was invoked by itself. The MODEL's own (log 8): 00_scope.md R5 gives
these operations a result and no place for it in the block. -/
inductive Result where
  | codeword (c : Codeword)
  | nibble (n : Nibble)
  | wire (bs : List Byte)
  | bytes (bs : List Byte)
  | deserialized (r : Deserialized)
  | accepted (b : Bool)
  deriving DecidableEq, Repr

/-- What the environment presents: a word on a port, or `rst` with `local_addr_in` (10_state.md R33 to R39). -/
inductive Input where
  | rst (localAddrIn : Addr)
  | word (p : Presented)
  deriving DecidableEq, Repr

/-- An entry of the schedule: an input and the real tick count at which it is taken (00_scope.md R16). -/
structure Event where
  time : Nat
  input : Input
  deriving DecidableEq, Repr

/-- Why a word is not an operation. Every one is safe: the hardware gives these words no meaning, or the
spec asks the model to refuse them. -/
inductive DecodeError where
  /-- `cmd_op` 0, 5, 6 or 7 presented on the command port (30_encoding.md R84, 93_implementation_defined.md U9).
  Raised by `decode`; safe. -/
  | reservedCommand
  /-- A SEND whose payload is not `cmd_len` bytes (10_state.md R36, 93_implementation_defined.md U17). Raised by
  `decode`; safe. -/
  | badPayloadLength
  /-- Not as many bytes as the port has, or bits beside the port's width. Raised by `decode`; safe. -/
  | malformedWord (p : Port)
  /-- A CW7 word that is no output of HENC (30_encoding.md R71), on HENC's interface. Raised by `decode`; safe. -/
  | notACodeword
  /-- Not a BYTE2 of the configured MARKER (30_encoding.md R74), on BM_ENC's interface. Raised by `decode`; safe. -/
  | notAByte2
  /-- Not the FRAME of a valid Frame (30_encoding.md R75), on the interface of SERIALIZE or Emit. Raised by
  `decode`; safe. -/
  | notAFrame
  /-- A slot index of `N_CONN` or more (10_state.md R31). Raised by `decode`; safe. -/
  | noSuchSlot
  deriving DecidableEq, Repr

/-- Where the model stops with a fault. Every one is safe: the spec says that it does not happen, and no
event of an agent reaches one from a state with the invariants of 10_state.md R29. -/
inductive Fault where
  /-- The frame buffer is read at an index nothing has written (10_state.md R40: "a model must treat a read of
  it as a fault of the model"; 93_implementation_defined.md U12). Raised by FA_PUSH; safe. -/
  | unwrittenByte (index : Nat)
  /-- The frame buffer is accessed at an index of 261 or more (10_state.md R26, R31). Raised by FA_PUSH; safe. -/
  | noSuchBufferByte (index : Nat)
  /-- An internal step is invoked by itself on a slot the block has not (10_state.md R31: "an agent never supplies
  a slot index"). Raised by CONN_RX, RX_*, RETRY, GIVE_UP and IDLE_DROP; safe. -/
  | noSuchSlot (i : Nat)
  deriving DecidableEq, Repr

/-- Where the model refuses. Every one is safe: it is a premise the spec puts on the environment. -/
inductive Refusal where
  /-- An instruction that has no meaning yet, refused by its arm of `exec`. None is left; safe. -/
  | notModelled (mnemonic : String)
  /-- A configuration or a local address that 00_scope.md R7 excludes ("refused by the model"; U10). Raised by
  `step`; safe. -/
  | badConfiguration
  /-- An event earlier than the one before it (20_memory.md R62 (c); U19). Raised by `step`; safe. -/
  | timeWentBack
  /-- The presented word is no operation. Raised by `step`; safe. -/
  | rejected (e : DecodeError)
  deriving DecidableEq, Repr

/-- The state of the block, with the model's own fields `cfg`, `time`, `inputs`, `out` and `results` (10_state.md
R41 lists what they hold as no state of the block). -/
structure State where
  /-- The configuration of 00_scope.md R6, never written (log 1). -/
  cfg : Config
  /-- `LOCAL_ADDR` (10_state.md R23). -/
  localAddr : Addr
  /-- `bm_pos` (10_state.md R25). -/
  bmPos : BmPos
  /-- `bm_cw` (10_state.md R25). -/
  bmCw : Byte
  /-- `bm_have_upper` (10_state.md R25). -/
  bmHaveUpper : Bool
  /-- `bm_upper` (10_state.md R25). -/
  bmUpper : Nibble
  /-- `fa_buf[0..261)` (10_state.md R26): the bytes written, addresses strictly rising (Machine/Memory.lean). -/
  faBuf : List Host.Cell
  /-- `fa_count` (10_state.md R26). -/
  faCount : BitVec 9
  /-- `conn[0..N_CONN)` (10_state.md R27). -/
  conn : List Slot
  /-- The real tick count of the event being taken (00_scope.md R16; log 6). -/
  time : Nat
  /-- The events still to be taken, in order (00_scope.md R15; log 5). -/
  inputs : List Event
  /-- The output streams, oldest item first (00_scope.md R13, 20_memory.md R63; log 8). -/
  out : List Output
  /-- What pure functions invoked by themselves returned, oldest first (log 8). -/
  results : List Result
  deriving DecidableEq, Repr

/-- A slot after reset: DISCONNECTED (10_state.md R40); the other elements are unspecified there, zero here
(DESIGN CHOICE, log 3; unsafe for a claim that rests on the zero). -/
def Slot.reset : Slot :=
  { state := .disconnected, remote := 0, lastActivity := 0, retryCount := 0 }

/-- The block after reset under configuration `cfg` with `local_addr_in = a` (10_state.md R40,
70_reset_and_hazards.md R260). `bm_cw` and `bm_upper` are unspecified there, zero here (DESIGN CHOICE, log 3). -/
def State.resetWith (cfg : Config) (a : Addr) : State :=
  { cfg := cfg, localAddr := a, bmPos := .scan, bmCw := 0, bmHaveUpper := false, bmUpper := 0, faBuf := [],
    faCount := 0, conn := List.replicate cfg.nConn Slot.reset, time := 0, inputs := [], out := [], results := [] }

/-- The machine right after reset, with the illustrative configuration CFG_A (log 1) and node A's address 0x10
on `local_addr_in` (log 2): DESIGN CHOICE, unsafe for a claim that rests on them. -/
def State.reset : State :=
  State.resetWith Config.cfgA 0x10

end Sys2Proof.Machine
end

