-- ==== Sys2Proof/Machine/Flags.lean ====
section
/-! DEFINITION. The block has no status flag and no condition code (10_state.md R30). What takes their place is
reported on ports: the codes of `Status`, `FrameErr` and `Notify` (30_encoding.md R85, R87, R88) and the beats of
the transmit port (10_state.md R35). No rule computes with these numbers. -/

namespace Sys2Proof.Machine

/-- The code of a failure on its port: `cmd_status` 1 to 4, `fe_code` 1 to 3 (60_exceptions.md R230). -/
def Failure.code : Failure → Nat
  | .frameTooShort => 1
  | .invalidDelimiters => 2
  | .lengthMismatch => 3
  | .notConnected => 1
  | .alreadyPending => 2
  | .alreadyConnected => 3
  | .noFreeSlot => 4

/-- `cmd_status[2:0]` (30_encoding.md R85). -/
def Status.code : Status → BitVec 3
  | .ok => 0
  | .failed f => BitVec.ofNat 3 f.code

/-- `fe_code[1:0]` (30_encoding.md R88). -/
def feCode (e : Failure) : BitVec 2 := BitVec.ofNat 2 e.code

/-- ConnState on `nt_old` and `nt_new` (30_encoding.md R87). -/
def ConnState.code : ConnState → BitVec 2
  | .disconnected => 0
  | .connecting => 1
  | .connected => 2
  | .disconnecting => 3

/-- BmPos (30_encoding.md R87). -/
def BmPos.code : BmPos → BitVec 2
  | .scan => 0
  | .cw => 1
  | .close => 2

/-- The beats of one `Tx` on the transmit port, `(tx_data, tx_last)` each (10_state.md R35). -/
def txBeats : List Byte → List (Byte × Bool)
  | [] => []
  | [b] => [(b, true)]
  | b :: c :: rest => (b, false) :: txBeats (c :: rest)

/-- The transmit stream: the wire bytes of every `Tx`, in order (20_memory.md R63). -/
def txStream : List Output → List Byte
  | [] => []
  | .tx wire :: rest => wire ++ txStream rest
  | .deliver _ _ :: rest => txStream rest
  | .notify _ _ _ _ :: rest => txStream rest
  | .status _ :: rest => txStream rest
  | .frameErr _ :: rest => txStream rest

/-- The interface a failure is reported on: `FrameErr` for the frame failures, `Status` for those of host
commands (00_scope.md R12, 60_exceptions.md R230). -/
def Failure.report : Failure → Output
  | .frameTooShort => .frameErr .frameTooShort
  | .invalidDelimiters => .frameErr .invalidDelimiters
  | .lengthMismatch => .frameErr .lengthMismatch
  | .notConnected => .status (.failed .notConnected)
  | .alreadyPending => .status (.failed .alreadyPending)
  | .alreadyConnected => .status (.failed .alreadyConnected)
  | .noFreeSlot => .status (.failed .noFreeSlot)

end Sys2Proof.Machine
end

