-- ==== Sys2Proof/Machine/Params.lean ====
section
/-! DEFINITION. The fixed constants of 00_scope.md R6 and the constraints of R7 on the parameters. -/

namespace Sys2Proof

/-- `TYPE_DATA` (00_scope.md R6). -/
abbrev typeData : Byte := 0x01

/-- `TYPE_LINK` (00_scope.md R6). -/
abbrev typeLink : Byte := 0x02

/-- `TYPE_UNLINK` (00_scope.md R6). -/
abbrev typeUnlink : Byte := 0x03

/-- `TYPE_ACK` (00_scope.md R6). -/
abbrev typeAck : Byte := 0x04

/-- `TYPE_RETRY_REQUEST`, "reserved, unused" (00_scope.md R6). -/
abbrev typeRetryRequest : Byte := 0x05

/-- `BROADCAST` (00_scope.md R6). -/
abbrev broadcast : Addr := 0x7F

/-- `FRAME_OVERHEAD` (00_scope.md R6). -/
abbrev frameOverhead : Nat := 6

/-- `LENGTH_MAX` (00_scope.md R6). -/
abbrev lengthMax : Nat := 255

/-- `FRAME_MAX` (00_scope.md R6). -/
abbrev frameMax : Nat := 261

/-- The constraints of 00_scope.md R7 on the parameters, with the legal ranges R6 gives (`TS_W` at least 2).
A configuration that breaks one is refused by `step` (R7, 93_implementation_defined.md U10). -/
def Config.valid (c : Config) : Bool :=
  decide (1 ≤ c.retryTimeout) && decide (1 ≤ c.idleTimeout) &&
  decide (c.retryTimeout < 2 ^ (c.tsW - 1)) && decide (c.idleTimeout < 2 ^ (c.tsW - 1)) &&
  decide (1 ≤ c.nConn) && decide (c.maxRetries ≤ 255) && decide (2 ≤ c.tsW)

end Sys2Proof
end

