-- ==== Sys2Proof/Machine/Operands.lean ====
section
/-! DEFINITION. Field and operand assembly (30_encoding.md R77 to R79): the nibbles of a byte, the data bits
of a nibble, an address as a byte and back, the types of frames and their codes. -/

namespace Sys2Proof

/-- `b[7:4]` (30_encoding.md R79). -/
def upperNibble (b : Byte) : Nibble := b.extractLsb' 4 4

/-- `b[3:0]` (30_encoding.md R79). -/
def lowerNibble (b : Byte) : Nibble := b.extractLsb' 0 4

/-- `{upper, lower}` (30_encoding.md R79). -/
def assembleByte (upper lower : Nibble) : Byte := upper ++ lower

/-- `d1` to `d4` of a nibble under a bit order (30_encoding.md R79). -/
def dataBits (o : NibbleBitOrder) (n : Nibble) : Bool × Bool × Bool × Bool :=
  match o with
  | .lsbFirst => (n.getLsbD 0, n.getLsbD 1, n.getLsbD 2, n.getLsbD 3)
  | .msbFirst => (n.getLsbD 3, n.getLsbD 2, n.getLsbD 1, n.getLsbD 0)

/-- The nibble whose data bits are `d1` to `d4` (41_hamming_decoder.md R110, last line of each setting). -/
def nibbleOfDataBits (o : NibbleBitOrder) (d1 d2 d3 d4 : Bool) : Nibble :=
  match o with
  | .lsbFirst => BitVec.ofBool d4 ++ BitVec.ofBool d3 ++ BitVec.ofBool d2 ++ BitVec.ofBool d1
  | .msbFirst => BitVec.ofBool d1 ++ BitVec.ofBool d2 ++ BitVec.ofBool d3 ++ BitVec.ofBool d4

/-- `zext_8(a)`: an address as a frame byte (30_encoding.md R77). -/
abbrev addrByte (a : Addr) : Byte := a.setWidth 8

/-- `b[6:0]`: the address in a frame byte whose bit 7 is 0 (30_encoding.md R77). -/
abbrev byteAddr (b : Byte) : Addr := b.setWidth 7

/-- `code(t)` of 43_frame_serializer.md R140. -/
def FrameType.code : FrameType → Byte
  | .data => typeData
  | .link => typeLink
  | .unlink => typeUnlink
  | .ack => typeAck
  | .retryRequest => typeRetryRequest

/-- The frame type with a given code, if there is one (30_encoding.md R76). -/
def frameTypeOfCode (t : Byte) : Option FrameType :=
  if t = typeData then some .data
  else if t = typeLink then some .link
  else if t = typeUnlink then some .unlink
  else if t = typeAck then some .ack
  else if t = typeRetryRequest then some .retryRequest
  else none

/-- The RxFrame with the field values of a Frame (10_state.md R20: the two "are identified"). -/
def Frame.toRx (f : Frame) : RxFrame :=
  { receiver8 := addrByte f.receiver, sender8 := addrByte f.sender, type8 := f.type.code, payload := f.payload }

/-- The Frame with the field values of a valid RxFrame (10_state.md R20). -/
def RxFrame.toFrame? (f : RxFrame) : Option Frame :=
  if f.receiver8.toNat < 0x80 ∧ f.sender8.toNat < 0x80 then
    match frameTypeOfCode f.type8 with
    | some t => some { receiver := byteAddr f.receiver8, sender := byteAddr f.sender8, type := t, payload := f.payload }
    | none => none
  else none

end Sys2Proof
end

