-- ==== Sys2Proof/Machine/FrameCodec.lean ====
section
/-! DEFINITION. The frame codec, pure: SERIALIZE (43_frame_serializer.md R140) and DESERIALIZE
(44_frame_deserializer.md R150). -/

namespace Sys2Proof.Machine

/-- SERIALIZE (43_frame_serializer.md R140). The LENGTH byte is `len(payload)`, which is at most 255 in a valid
Frame. -/
def serializeOp (cfg : Config) (f : Frame) : List Byte :=
  [cfg.start, addrByte f.receiver, addrByte f.sender, f.type.code, BitVec.ofNat 8 f.payload.length] ++
    f.payload ++ [cfg.stop]

/-- DESERIALIZE (44_frame_deserializer.md R150): the three tests in the order written, `STOP` looked for in the
last byte `buf[n-1]`. The default of `getD` is never used: every index read is below 6 or is `n - 1`. -/
def deserializeOp (cfg : Config) (buf : List Byte) : Deserialized :=
  let n := buf.length
  if n < frameOverhead then .fail .frameTooShort
  else if buf.getD 0 0 ≠ cfg.start ∨ buf.getD (n - 1) 0 ≠ cfg.stop then .fail .invalidDelimiters
  else if n ≠ (buf.getD 4 0).toNat + frameOverhead then .fail .lengthMismatch
  else
    .ok { receiver8 := buf.getD 1 0, sender8 := buf.getD 2 0, type8 := buf.getD 3 0,
          payload := (buf.drop 5).take (buf.getD 4 0).toNat }

end Sys2Proof.Machine
end

