-- ==== Sys2Proof/Machine/Hamming.lean ====
section
/-! DEFINITION. The Hamming(7,4) line code: HENC (40_hamming_encoder.md R100) and HDEC
(41_hamming_decoder.md R110), pure and total. -/

namespace Sys2Proof

/-- Layout CW7 of 30_encoding.md R71: `{d4, d3, d2, p3, d1, p2, p1}` with the parity equations of R71. -/
def codewordOfDataBits (d1 d2 d3 d4 : Bool) : Codeword :=
  let p1 := d1 ^^ d2 ^^ d4
  let p2 := d1 ^^ d3 ^^ d4
  let p3 := d2 ^^ d3 ^^ d4
  BitVec.ofBool d4 ++ BitVec.ofBool d3 ++ BitVec.ofBool d2 ++ BitVec.ofBool p3 ++ BitVec.ofBool d1 ++
    BitVec.ofBool p2 ++ BitVec.ofBool p1

/-- HENC (40_hamming_encoder.md R100). -/
def hencOp (o : NibbleBitOrder) (n : Nibble) : Codeword :=
  let (d1, d2, d3, d4) := dataBits o n
  codewordOfDataBits d1 d2 d3 d4

/-- The error position `s1 + 2*s2 + 4*s3`, 0 to 7 (41_hamming_decoder.md R110, R111). -/
def errorPosition (c : Codeword) : Nat :=
  let s1 := c.getLsbD 0 ^^ c.getLsbD 2 ^^ c.getLsbD 4 ^^ c.getLsbD 6
  let s2 := c.getLsbD 1 ^^ c.getLsbD 2 ^^ c.getLsbD 5 ^^ c.getLsbD 6
  let s3 := c.getLsbD 3 ^^ c.getLsbD 4 ^^ c.getLsbD 5 ^^ c.getLsbD 6
  s1.toNat + 2 * s2.toNat + 4 * s3.toNat

/-- `flipBit(x, p) = x ^ (1 << p)` (41_hamming_decoder.md R112). -/
def flipBit (c : Codeword) (p : Nat) : Codeword := c ^^^ (1#7 <<< p)

/-- The codeword after the bit at the error position is flipped (41_hamming_decoder.md R110). -/
def corrected (c : Codeword) : Codeword :=
  if errorPosition c = 0 then c else flipBit c (errorPosition c - 1)

/-- The nibble in the data bits of a codeword (41_hamming_decoder.md R110: "extracting data bits"). -/
def extractNibble (o : NibbleBitOrder) (c : Codeword) : Nibble :=
  nibbleOfDataBits o (c.getLsbD 2) (c.getLsbD 4) (c.getLsbD 5) (c.getLsbD 6)

/-- HDEC (41_hamming_decoder.md R110): flip before extracting the data bits. -/
def hdecOp (o : NibbleBitOrder) (c : Codeword) : Nibble :=
  extractNibble o (corrected c)

end Sys2Proof
end

