-- ==== Sys2Proof/Machine/Marker.lean ====
section
/-! DEFINITION. The framer of the byte marker codec, pure and total (42_byte_marker_codec.md R120, R121), and
the codeword byte of 30_encoding.md R72. The deframer is in Machine/Pipeline.lean. -/

namespace Sys2Proof

/-- The codeword byte `{0b0, cw[6:0]}` (30_encoding.md R72). -/
abbrev codewordByte (c : Codeword) : Byte := c.setWidth 8

/-- `bm_cw[6:0]`: the codeword of a received byte, bit 7 ignored (30_encoding.md R72). -/
abbrev byteCodeword (b : Byte) : Codeword := b.setWidth 7

/-- `cwb(n) = {0b0, HENC(n)}` (42_byte_marker_codec.md R120). -/
def cwb (o : NibbleBitOrder) (n : Nibble) : Byte := codewordByte (hencOp o n)

/-- One wire unit, format UNIT (30_encoding.md R73). -/
def unitOf (cfg : Config) (n : Nibble) : List Byte :=
  [cfg.marker, cwb cfg.nibbleBitOrder n, cfg.marker]

/-- `BM_ENC1(b)`, format BYTE2 (42_byte_marker_codec.md R120, 20_memory.md R51). -/
def bmEncByte (cfg : Config) (b : Byte) : List Byte :=
  unitOf cfg (upperNibble b) ++ unitOf cfg (lowerNibble b)

/-- `BM_ENC` on a byte sequence (42_byte_marker_codec.md R121). -/
def bmEncOp (cfg : Config) (bs : List Byte) : List Byte :=
  bs.flatMap (bmEncByte cfg)

end Sys2Proof
end

