-- ==== Sys2Proof/Machine/Memory.lean ====
section
/-! DEFINITION. The frame buffer `fa_buf[0..261)` and its two access primitives `MemRead` and `MemWrite`
(00_scope.md R11, 10_state.md R26, 20_memory.md R61): a list of (index, byte) pairs, indexes strictly rising and
below 261. An unlisted index holds no value, because reset leaves the buffer unspecified and a read of a byte
that nothing has written is a fault of the model (10_state.md R40; log 4, safe). -/

namespace Sys2Proof.Machine

/-- What the buffer holds at an index: the byte last written there, if any. -/
def bufRead : List Host.Cell → Nat → Option Byte
  | [], _ => none
  | (k, b) :: rest, a => if a = k then some b else bufRead rest a

/-- The buffer with byte `b` at index `a`, the indexes kept strictly rising. -/
def bufInsert : List Host.Cell → Nat → Byte → List Host.Cell
  | [], a, b => [(a, b)]
  | (k, c) :: rest, a, b =>
    if a < k then (a, b) :: (k, c) :: rest
    else if a = k then (a, b) :: rest
    else (k, c) :: bufInsert rest a b

/-- `MemWrite(a, 1, b)`; none where the buffer has no such index (10_state.md R26). -/
def memWrite (buf : List Host.Cell) (a : Nat) (b : Byte) : Option (List Host.Cell) :=
  if a < frameMax then some (bufInsert buf a b) else none

/-- `MemRead(a, n) = fa_buf[a..a+n)` (00_scope.md R11); none where a byte of it has not been written. -/
def memRead (buf : List Host.Cell) (a : Nat) : Nat → Option (List Byte)
  | 0 => some []
  | n + 1 =>
    match bufRead buf a with
    | none => none
    | some b =>
      match memRead buf (a + 1) n with
      | none => none
      | some bs => some (b :: bs)

/-- The first index of `[a, a + n)` that nothing has written, for the fault that names it. -/
def firstUnwritten (buf : List Host.Cell) (a : Nat) : Nat → Nat
  | 0 => a
  | n + 1 => if (bufRead buf a).isSome then firstUnwritten buf (a + 1) n else a

/-- Indexes strictly rising from `lo` on and below 261: the canonical form. -/
def bufSorted : Nat → List Host.Cell → Bool
  | _, [] => true
  | lo, (k, _) :: rest => decide (lo ≤ k) && decide (k < frameMax) && bufSorted (k + 1) rest

/-- The buffer's canonical form holds. -/
def Memory.wf (buf : List Host.Cell) : Bool := bufSorted 0 buf

end Sys2Proof.Machine
end

