-- ==== Sys2Proof/Machine/Ops.lean ====
section
/-! DEFINITION. The shared operations over the state: outputs, time, the connection slots, emission of frames,
and the one way a failure is raised (00_scope.md R11 to R13, R16; 45_connection_fsm.md R170; 60_exceptions.md
R236). There is no return from a failure (R237). -/

namespace Sys2Proof.Machine

/-- Append one item to the output streams (00_scope.md R13). -/
def State.output (s : State) (o : Output) : State := { s with out := s.out ++ [o] }

/-- Give the result of a pure function invoked by itself to its caller (log 8). -/
def State.ret (s : State) (r : Result) : State := { s with results := s.results ++ [r] }

/-- `raise <Failure>`: no state write, the failure reported on its interface, the block ready for the next
event (00_scope.md R12, 60_exceptions.md R231, R232, R236). -/
def State.raise (s : State) (f : Failure) : State := s.output f.report

/-- `now`: the low `TS_W` bits of the real tick count (00_scope.md R16). -/
def State.now (s : State) : Nat := s.time % 2 ^ s.cfg.tsW

/-- `elapsed(now, last) = (now - last) mod 2^TS_W` (00_scope.md R16). -/
def elapsed (tsW now last : Nat) : Nat := (now + (2 ^ tsW - last % 2 ^ tsW)) % 2 ^ tsW

/-- A slot in use: its state is not DISCONNECTED (10_state.md R27). -/
def Slot.live (c : Slot) : Bool := decide (c.state ≠ .disconnected)

/-- `find(r)`: the slot in use for peer `r` (45_connection_fsm.md R170). -/
def State.find (s : State) (r : Addr) : Option Nat :=
  s.conn.findIdx? (fun c => c.live && decide (c.remote = r))

/-- `free()`: the least slot that is DISCONNECTED (45_connection_fsm.md R170). -/
def State.free (s : State) : Option Nat :=
  s.conn.findIdx? (fun c => !c.live)

/-- `conn[i].state`, DISCONNECTED where there is no slot `i`. -/
def State.slotState (s : State) (i : Nat) : ConnState :=
  match s.conn[i]? with
  | some c => c.state
  | none => .disconnected

/-- `cstate(r)` (45_connection_fsm.md R170). -/
def State.cstate (s : State) (r : Addr) : ConnState :=
  match s.find r with
  | some i => s.slotState i
  | none => .disconnected

/-- Write slot `i` through `g`; nothing where there is no such slot. -/
def State.updSlot (s : State) (i : Nat) (g : Slot → Slot) : State :=
  { s with conn := s.conn.modify i g }

/-- `conn[i].remote <- r`. -/
def State.setRemote (s : State) (i : Nat) (r : Addr) : State :=
  s.updSlot i (fun c => { c with remote := r })

/-- `conn[i].retry_count <- n`. -/
def State.setRetryCount (s : State) (i : Nat) (n : BitVec 8) : State :=
  s.updSlot i (fun c => { c with retryCount := n })

/-- `Touch(i)`: record activity (45_connection_fsm.md R170). -/
def State.touch (s : State) (i : Nat) : State :=
  s.updSlot i (fun c => { c with lastActivity := s.now })

/-- `SetState(i, new)` with its `Notify` when the state changes (45_connection_fsm.md R170, 10_state.md R38). -/
def State.setConnState (s : State) (i : Nat) (new : ConnState) : State :=
  match s.conn[i]? with
  | none => s
  | some c =>
    let s1 := s.updSlot i (fun d => { d with state := new })
    if c.state ≠ new then s1.output (.notify i c.remote c.state new) else s1

/-- `Ctl(t, r)`: a control frame to `r`, empty payload (45_connection_fsm.md R170). -/
def State.ctl (s : State) (t : FrameType) (r : Addr) : Frame :=
  { receiver := r, sender := s.localAddr, type := t, payload := [] }

/-- The wire bytes of a frame: `BM_ENC(SERIALIZE(f))` (43_frame_serializer.md R141). -/
def wireOf (cfg : Config) (f : Frame) : List Byte := bmEncOp cfg (serializeOp cfg f)

/-- `Emit(f)`: one contiguous `Tx` (43_frame_serializer.md R141, 20_memory.md R58). -/
def State.emitFrame (s : State) (f : Frame) : State := s.output (.tx (wireOf s.cfg f))

/-- Every element at its reset value, with `local_addr_in = a` (70_reset_and_hazards.md R260): nothing is emitted,
the output streams are empty (10_state.md R40). The configuration, the environment's time and the events still to
come are no state of the block and stay. -/
def State.applyReset (s : State) (a : Addr) : State :=
  { State.resetWith s.cfg a with time := s.time, inputs := s.inputs }

end Sys2Proof.Machine
end

