-- ==== Sys2Proof/WellFormed.lean ====
section
/-! DEFINITION. Which operations the ports can carry: payloads of at most 255 bytes (10_state.md R20,
92_eei_decisions.md D36), slot indexes below `N_CONN` (10_state.md R31), and an inbound frame handler only for
the TYPE that selects it (30_encoding.md R76). -/

namespace Sys2Proof

/-- A valid Frame (10_state.md R20). -/
def Frame.valid (f : Frame) : Bool :=
  decide (f.payload.length ≤ lengthMax)

/-- An RxFrame's payload has 0 to 255 bytes (10_state.md R20). -/
def RxFrame.sized (f : RxFrame) : Bool :=
  decide (f.payload.length ≤ lengthMax)

/-- An RxFrame is valid when both address bytes are addresses and the type is one of the five
(10_state.md R20). -/
def RxFrame.valid (f : RxFrame) : Bool :=
  decide (f.receiver8.toNat < 0x80) && decide (f.sender8.toNat < 0x80) &&
  decide (1 ≤ f.type8.toNat) && decide (f.type8.toNat ≤ 5) && f.sized

/-- The TYPE bytes without a meaning of their own: 0x00 and 0x06 to 0xFF (30_encoding.md R76, R81). -/
def reservedType (t : Byte) : Bool :=
  decide (t.toNat = 0) || decide (6 ≤ t.toNat)

/-- The operations a port can carry under configuration `cfg`. -/
def Instr.wellFormed (cfg : Config) : Instr → Bool
  | .henc _ => true
  | .hdec _ => true
  | .bmEnc _ => true
  | .bmRxByte _ => true
  | .bmRxTimeout => true
  | .serialize f => f.valid
  | .emit f => f.valid
  | .deserialize _ => true
  | .faPush _ => true
  | .accept f => f.sized
  | .route f => f.sized
  | .connRx i f => decide (i < cfg.nConn) && f.sized
  | .cmdConnect _ => true
  | .cmdDisconnect _ => true
  | .cmdSend _ p => decide (p.length ≤ lengthMax)
  | .cmdAbort _ => true
  | .rxData i f => decide (i < cfg.nConn) && f.sized && decide (f.type8 = typeData)
  | .rxLink i f => decide (i < cfg.nConn) && f.sized && decide (f.type8 = typeLink)
  | .rxUnlink i f => decide (i < cfg.nConn) && f.sized && decide (f.type8 = typeUnlink)
  | .rxAck i f => decide (i < cfg.nConn) && f.sized && decide (f.type8 = typeAck)
  | .rxRetryRequest i f => decide (i < cfg.nConn) && f.sized && decide (f.type8 = typeRetryRequest)
  | .rxReserved i f => decide (i < cfg.nConn) && f.sized && reservedType f.type8
  | .tick => true
  | .retry i => decide (i < cfg.nConn)
  | .giveUp i => decide (i < cfg.nConn)
  | .idleDrop i => decide (i < cfg.nConn)

end Sys2Proof
end

