-- ==== Sys2Proof/Decode.lean ====
section
/-! DEFINITION. The decoder, total on any bytes of any interface, rejecting by name, and the encoder. The agents'
ports RXP, CMD and TICK follow 30_encoding.md R84 and R86; CW7, BYTE2 and FRAME follow R71 to R76. The opcode table
writes the internal steps as all-x patterns over one byte (R90); the bytes that hold the rest of their operands are
the model's own (log 11). -/

namespace Sys2Proof

open Machine

/-- What a word on an interface is. -/
inductive Decoded where
  | instr (i : Instr)
  /-- The port presents no event (30_encoding.md R86: `00xxxxxxxx`, and `tick == 0`). -/
  | noEvent
  | reject (e : DecodeError)
  deriving DecidableEq, Repr

/-- Bits 9:8 of a ten-bit port word are bits 1:0 of its first byte; the other six are beside the port. -/
def beyondTenBits (hi : Byte) : Bool := decide (4 ≤ hi.toNat)

/-- The receive port over `{rx_timeout, rx_valid, rx_data}` (30_encoding.md R86); a byte wins over a timeout
(10_state.md R34). -/
def decodeRxp : List Byte → Decoded
  | [hi, lo] =>
    if beyondTenBits hi then .reject (.malformedWord .rxp)
    else if hi.getLsbD 0 then .instr (.bmRxByte lo)
    else if hi.getLsbD 1 then .instr .bmRxTimeout
    else .noEvent
  | _ => .reject (.malformedWord .rxp)

/-- `cmd_op`: bits 9:7 of `{cmd_op, cmd_addr}` (30_encoding.md R84). -/
def cmdOp (hi lo : Byte) : Nat := 2 * hi.toNat + lo.toNat / 128

/-- The payload a SEND presents beside its word: `cmd_len` and `cmd_len` bytes (10_state.md R36). -/
def decodeSend (r : Addr) : List Byte → Decoded
  | [] => .reject .badPayloadLength
  | len :: payload =>
    if payload.length = len.toNat then .instr (.cmdSend r payload) else .reject .badPayloadLength

/-- The command port (30_encoding.md R84): `cmd_op` 5, 6, 7, and 0 with `cmd_valid`, are refused
(93_implementation_defined.md U9). `cmd_len` and `cmd_payload` are looked at for SEND only (10_state.md R36). -/
def decodeCmd : List Byte → Decoded
  | hi :: lo :: rest =>
    if beyondTenBits hi then .reject (.malformedWord .cmd)
    else
      match cmdOp hi lo with
      | 1 => .instr (.cmdConnect (byteAddr lo))
      | 2 => .instr (.cmdDisconnect (byteAddr lo))
      | 3 => decodeSend (byteAddr lo) rest
      | 4 => .instr (.cmdAbort (byteAddr lo))
      | _ => .reject .reservedCommand
  | _ => .reject (.malformedWord .cmd)

/-- The timer port, one bit (30_encoding.md R86). -/
def decodeTick : List Byte → Decoded
  | [b] => if b = 1 then .instr .tick else if b = 0 then .noEvent else .reject (.malformedWord .tick)
  | _ => .reject (.malformedWord .tick)

/-- A CW7 word (30_encoding.md R71) as what HENC produces from a nibble: its data bits are the nibble, and its
parity bits are those of the nibble's codeword. -/
def decodeHenc (cfg : Config) : List Byte → Decoded
  | [b] =>
    let n := extractNibble cfg.nibbleBitOrder (byteCodeword b)
    if b = cwb cfg.nibbleBitOrder n then .instr (.henc n) else .reject .notACodeword
  | _ => .reject (.malformedWord .henc)

/-- A CW7 word as the operand of HDEC: all 128 values (41_hamming_decoder.md R110). -/
def decodeHdec : List Byte → Decoded
  | [b] => if b.toNat < 128 then .instr (.hdec (byteCodeword b)) else .reject (.malformedWord .hdec)
  | _ => .reject (.malformedWord .hdec)

/-- The byte one BYTE2 carries (30_encoding.md R74), if the six wire bytes are one under `MARKER`. -/
def byteOfByte2 (cfg : Config) (w : List Byte) : Option Byte :=
  match w with
  | [_, c1, _, _, c2, _] =>
    let b := assembleByte (extractNibble cfg.nibbleBitOrder (byteCodeword c1))
      (extractNibble cfg.nibbleBitOrder (byteCodeword c2))
    if w = bmEncByte cfg b then some b else none
  | _ => none

/-- The bytes that consecutive BYTE2 words carry (42_byte_marker_codec.md R121). -/
def bytesOfByte2s (cfg : Config) : List Byte → Option (List Byte)
  | [] => some []
  | m1 :: c1 :: m2 :: m3 :: c2 :: m4 :: rest =>
    match byteOfByte2 cfg [m1, c1, m2, m3, c2, m4], bytesOfByte2s cfg rest with
    | some b, some bs => some (b :: bs)
    | _, _ => none
  | _ :: _ => none

/-- BYTE2 words as what BM_ENC produces (30_encoding.md R74). -/
def decodeBmEnc (cfg : Config) (bits : List Byte) : Decoded :=
  match bytesOfByte2s cfg bits with
  | some bs => .instr (.bmEnc bs)
  | none => .reject .notAByte2

/-- A FRAME as what SERIALIZE and Emit produce from a valid Frame (30_encoding.md R75). -/
def frameOfBytes (cfg : Config) (bits : List Byte) : Option Frame :=
  match deserializeOp cfg bits with
  | .ok rx => rx.toFrame?
  | .fail _ => none

/-- The operand of SERIALIZE or Emit, in the layout they produce. -/
def decodeFrameOp (cfg : Config) (mk : Frame → Instr) (bits : List Byte) : Decoded :=
  match frameOfBytes cfg bits with
  | some f => .instr (mk f)
  | none => .reject .notAFrame

/-- FA_PUSH: the decoded byte (row FA_PUSH of the table, `xxxxxxxx`). -/
def decodeFaPush : List Byte → Decoded
  | [d] => .instr (.faPush d)
  | _ => .reject (.malformedWord .faPush)

/-- Four field bytes and `len` payload bytes, for the internal steps whose operand is an RxFrame (log 11). The table
gives the first byte; `mk` puts the first three in their places. -/
def decodeRxOperand (p : Port) (mk : Byte → Byte → Byte → List Byte → Instr) : List Byte → Decoded
  | x :: y :: z :: len :: payload =>
    if payload.length = len.toNat then .instr (mk x y z payload) else .reject (.malformedWord p)
  | _ => .reject (.malformedWord p)

/-- The handler of an inbound frame, by its TYPE: the five rows, then the default row RX_RESERVED
(30_encoding.md R76; spec/opcode_table.json, note of RX_RESERVED). -/
def handlerOf (i : Nat) (f : RxFrame) : Instr :=
  if f.type8 = typeData then .rxData i f
  else if f.type8 = typeLink then .rxLink i f
  else if f.type8 = typeUnlink then .rxUnlink i f
  else if f.type8 = typeAck then .rxAck i f
  else if f.type8 = typeRetryRequest then .rxRetryRequest i f
  else .rxReserved i f

/-- An inbound frame on the handlers' interface: header, LENGTH payload bytes, STOP (30_encoding.md R75). The type
decode looks at neither START nor STOP: "START is a parameter and is checked by DESERIALIZE, not by the type
decode" (R76). -/
def decodeRxFrame (i : Nat) : List Byte → Decoded
  | _ :: r :: t :: ty :: len :: rest =>
    if rest.length = len.toNat + 1 then
      .instr (handlerOf i { receiver8 := r, sender8 := t, type8 := ty, payload := rest.take len.toNat })
    else .reject (.malformedWord .rxFrame)
  | _ => .reject (.malformedWord .rxFrame)

/-- A per-slot action of TICK: the table's pattern is one bit that is not looked at. -/
def decodeSlotAction (p : Port) (i : Instr) : List Byte → Decoded
  | [_] => .instr i
  | _ => .reject (.malformedWord p)

/-- A slot index must be one of the block's (10_state.md R31). -/
def withSlot (cfg : Config) (i : Nat) (d : Decoded) : Decoded :=
  if i < cfg.nConn then d else .reject .noSuchSlot

/-- The decoder: the operation that the bytes on an interface are. -/
def decode (cfg : Config) (p : Presented) : Decoded :=
  match p.port with
  | .rxp => decodeRxp p.bits
  | .cmd => decodeCmd p.bits
  | .tick => decodeTick p.bits
  | .henc => decodeHenc cfg p.bits
  | .hdec => decodeHdec p.bits
  | .bmEnc => decodeBmEnc cfg p.bits
  | .serialize => decodeFrameOp cfg .serialize p.bits
  | .emit => decodeFrameOp cfg .emit p.bits
  | .deserialize => .instr (.deserialize p.bits)
  | .faPush => decodeFaPush p.bits
  | .accept => decodeRxOperand .accept (fun x y z pl => .accept ⟨x, y, z, pl⟩) p.bits
  | .route => decodeRxOperand .route (fun x y z pl => .route ⟨y, x, z, pl⟩) p.bits
  | .connRx => withSlot cfg p.slot (decodeRxOperand .connRx (fun x y z pl => .connRx p.slot ⟨y, z, x, pl⟩) p.bits)
  | .rxFrame => withSlot cfg p.slot (decodeRxFrame p.slot p.bits)
  | .retry => withSlot cfg p.slot (decodeSlotAction .retry (.retry p.slot) p.bits)
  | .giveUp => withSlot cfg p.slot (decodeSlotAction .giveUp (.giveUp p.slot) p.bits)
  | .idleDrop => withSlot cfg p.slot (decodeSlotAction .idleDrop (.idleDrop p.slot) p.bits)

/-- A word of the command port, `{cmd_op, cmd_addr}` with zeros above (30_encoding.md R84). -/
def cmdWord (op : Nat) (r : Addr) : List Byte :=
  [BitVec.ofNat 8 (op / 2), BitVec.ofNat 8 (128 * (op % 2)) + r.setWidth 8]

/-- The length byte of a payload of at most 255 bytes (30_encoding.md R78). -/
def lengthByte (payload : List Byte) : Byte := BitVec.ofNat 8 payload.length

/-- An inbound frame's bytes (30_encoding.md R75). -/
def rxFrameBytes (cfg : Config) (f : RxFrame) : List Byte :=
  [cfg.start, f.receiver8, f.sender8, f.type8, lengthByte f.payload] ++ f.payload ++ [cfg.stop]

/-- The encoder: the bytes of an operation, and where they are presented. -/
def encode (cfg : Config) : Instr → Presented
  | .henc n => ⟨.henc, 0, [cwb cfg.nibbleBitOrder n]⟩
  | .hdec c => ⟨.hdec, 0, [codewordByte c]⟩
  | .bmEnc bs => ⟨.bmEnc, 0, bmEncOp cfg bs⟩
  | .bmRxByte b => ⟨.rxp, 0, [0x01, b]⟩
  | .bmRxTimeout => ⟨.rxp, 0, [0x02, 0x00]⟩
  | .serialize f => ⟨.serialize, 0, serializeOp cfg f⟩
  | .emit f => ⟨.emit, 0, serializeOp cfg f⟩
  | .deserialize buf => ⟨.deserialize, 0, buf⟩
  | .faPush d => ⟨.faPush, 0, [d]⟩
  | .accept f => ⟨.accept, 0, [f.receiver8, f.sender8, f.type8, lengthByte f.payload] ++ f.payload⟩
  | .route f => ⟨.route, 0, [f.sender8, f.receiver8, f.type8, lengthByte f.payload] ++ f.payload⟩
  | .connRx i f => ⟨.connRx, i, [f.type8, f.receiver8, f.sender8, lengthByte f.payload] ++ f.payload⟩
  | .cmdConnect r => ⟨.cmd, 0, cmdWord 1 r⟩
  | .cmdDisconnect r => ⟨.cmd, 0, cmdWord 2 r⟩
  | .cmdSend r payload => ⟨.cmd, 0, cmdWord 3 r ++ lengthByte payload :: payload⟩
  | .cmdAbort r => ⟨.cmd, 0, cmdWord 4 r⟩
  | .rxData i f => ⟨.rxFrame, i, rxFrameBytes cfg f⟩
  | .rxLink i f => ⟨.rxFrame, i, rxFrameBytes cfg f⟩
  | .rxUnlink i f => ⟨.rxFrame, i, rxFrameBytes cfg f⟩
  | .rxAck i f => ⟨.rxFrame, i, rxFrameBytes cfg f⟩
  | .rxRetryRequest i f => ⟨.rxFrame, i, rxFrameBytes cfg f⟩
  | .rxReserved i f => ⟨.rxFrame, i, rxFrameBytes cfg f⟩
  | .tick => ⟨.tick, 0, [0x01]⟩
  | .retry i => ⟨.retry, i, [0x00]⟩
  | .giveUp i => ⟨.giveUp, i, [0x00]⟩
  | .idleDrop i => ⟨.idleDrop, i, [0x00]⟩

/-- The low `n` bytes of `w`, the most significant first: how the table's patterns are written (30_encoding.md R73,
R76). -/
def wordBytes : Nat → Nat → List Byte
  | 0, _ => []
  | n + 1, w => BitVec.ofNat 8 (w / 256 ^ n) :: wordBytes n w

/-- A FRAME header of five bytes with its payload and STOP bytes, which the table gives no bits, zero. -/
def frameWord (w : Nat) : Presented :=
  ⟨.rxFrame, 0, wordBytes 5 w ++ List.replicate (w % 256 + 1) 0⟩

/-- The words of the table placed on ports: DESIGN CHOICE (log 10), safe, because 30_encoding.md R90 and the table name no
port for a word and the formats overlap (eight bits are a CW7, a decoded byte, TICK or an internal step; ten or sixteen are
RXP, CMD or the low half of a FRAME header). Here a word of one bit is TICK's; of 2 to 8 bits the value 1 is TICK's too,
NOT HDEC(0x01), because a host that counts in whole bytes gives the row TICK eight bits; every other value below 128 is
HDEC's, and a value of 128 or more is FA_PUSH's. A ten-bit word is on CMD where `cmd_op` is 1 to 4 and else on RXP; a 16-bit
word with `cmd_op` 1 or 3 is on CMD, 0x280 to 0x2FF on RXP, and any other, those with `cmd_op` 2 and 4 included, is the low
half of a FRAME header; 24 bits are a UNIT, three bytes of the line; 32 or 40 bits are a FRAME header; 48 a BYTE2. -/
def tableWords (nbits w : Nat) : List Presented :=
  if nbits ≤ 1 then [⟨.tick, 0, wordBytes 1 (w % 2)⟩]
  else if nbits ≤ 8 then
    if w = 1 then [⟨.tick, 0, wordBytes 1 w⟩]
    else if w < 128 then [⟨.hdec, 0, wordBytes 1 w⟩]
    else [⟨.faPush, 0, wordBytes 1 w⟩]
  else if nbits ≤ 10 then
    if 0x080 ≤ w ∧ w < 0x280 then [⟨.cmd, 0, wordBytes 2 w ++ [0]⟩] else [⟨.rxp, 0, wordBytes 2 w⟩]
  else if nbits ≤ 16 then
    if (0x080 ≤ w ∧ w < 0x100) ∨ (0x180 ≤ w ∧ w < 0x200) then [⟨.cmd, 0, wordBytes 2 w ++ [0]⟩]
    else if 0x280 ≤ w ∧ w < 0x300 then [⟨.rxp, 0, wordBytes 2 w⟩]
    else [frameWord w]
  else if nbits ≤ 24 then (wordBytes 3 w).map (fun b => ⟨.rxp, 0, [0x01, b]⟩)
  else if nbits ≤ 40 then [frameWord w]
  else if nbits ≤ 48 then [⟨.bmEnc, 0, wordBytes 6 w⟩]
  else []

/-- The operation this decoder reads from a word of the table, under the configuration of `Machine.State.reset`; of a
UNIT, the first of its three BM_RXBYTE events. -/
def decodeTableWord (nbits w : Nat) : Option Instr :=
  match tableWords nbits w with
  | [] => none
  | p :: _ =>
    match decode Config.cfgA p with
    | .instr i => some i
    | .noEvent => none
    | .reject _ => none

end Sys2Proof
end

