-- ==== Sys2Proof/Machine/Pipeline.lean ====
section
/-! DEFINITION. The shared operations of the inbound pipeline (44_frame_deserializer.md R155), last stage first: the
connection's handlers (45_connection_fsm.md R176 to R181), the dispatch (R171), ROUTE and ACCEPT
(44_frame_deserializer.md R152, R153), FA_PUSH (R151), the deframer (42_byte_marker_codec.md R122 to R125); and the
per-slot actions of TICK (45_connection_fsm.md R183 to R186). All of one event's chain is one step
(20_memory.md R57). -/

namespace Sys2Proof.Machine

/-- The outcome of an operation. -/
abbrev Out := Host.Outcome State Fault Refusal

/-- RX_LINK (45_connection_fsm.md R176). -/
def rxLinkOp (s : State) (i : Nat) : Out :=
  match s.conn[i]? with
  | none => .fault (.noSuchSlot i)
  | some c =>
    if c.state = .disconnected then
      .next ((((s.emitFrame (s.ctl .ack c.remote)).setRetryCount i 0).touch i).setConnState i .connected)
    else .next s

/-- RX_ACK (45_connection_fsm.md R177). -/
def rxAckOp (s : State) (i : Nat) (f : RxFrame) : Out :=
  match s.conn[i]? with
  | none => .fault (.noSuchSlot i)
  | some c =>
    match c.state with
    | .connecting => .next (((s.setRemote i (byteAddr f.sender8)).touch i).setConnState i .connected)
    | .disconnecting => .next (s.setConnState i .disconnected)
    | .connected => .next s
    | .disconnected => .next s

/-- RX_UNLINK (45_connection_fsm.md R178). -/
def rxUnlinkOp (s : State) (i : Nat) : Out :=
  match s.conn[i]? with
  | none => .fault (.noSuchSlot i)
  | some c =>
    if c.state = .connected then
      .next ((s.emitFrame (s.ctl .ack c.remote)).setConnState i .disconnected)
    else .next s

/-- RX_DATA (45_connection_fsm.md R179): `Deliver` before the optional `Emit` (20_memory.md R63). -/
def rxDataOp (s : State) (i : Nat) (f : RxFrame) : Out :=
  match s.conn[i]? with
  | none => .fault (.noSuchSlot i)
  | some c =>
    if c.state = .connected then
      let s1 := s.output (.deliver c.remote f.payload)
      let s2 := if s.cfg.ackOnData then s1.emitFrame (s.ctl .ack c.remote) else s1
      .next (s2.touch i)
    else .next s

/-- A frame a connection does not act on: nothing (45_connection_fsm.md R180, R181). -/
def rxIgnoreOp (s : State) (i : Nat) : Out :=
  match s.conn[i]? with
  | none => .fault (.noSuchSlot i)
  | some _ => .next s

/-- The frame is considered by the connection: `sender == remote` and `receiver == LOCAL_ADDR`
(45_connection_fsm.md R171). -/
def considered (s : State) (c : Slot) (f : RxFrame) : Bool :=
  decide (f.sender8 = addrByte c.remote) && decide (f.receiver8 = addrByte s.localAddr)

/-- CONN_RX (45_connection_fsm.md R171): "only frames with sender==remoteAddress and receiver==localAddress are
considered by a given Connection; others are ignored". ROUTE has established the filter already; it stands here for
an invocation of CONN_RX by itself (log 13). -/
def connRxOp (s : State) (i : Nat) (f : RxFrame) : Out :=
  match s.conn[i]? with
  | none => .fault (.noSuchSlot i)
  | some c =>
    if considered s c f then
      if f.type8 = typeData then rxDataOp s i f
      else if f.type8 = typeLink then rxLinkOp s i
      else if f.type8 = typeUnlink then rxUnlinkOp s i
      else if f.type8 = typeAck then rxAckOp s i f
      else rxIgnoreOp s i
    else .next s

/-- ROUTE (44_frame_deserializer.md R153). -/
def routeOp (s : State) (f : RxFrame) : Out :=
  if 0x80 ≤ f.sender8.toNat then .next s
  else if f.receiver8 ≠ addrByte s.localAddr then .next s
  else
    match s.find (byteAddr f.sender8) with
    | some i => connRxOp s i f
    | none =>
      if f.type8 = typeLink then
        match s.free with
        | some j => connRxOp (s.setRemote j (byteAddr f.sender8)) j f
        | none => .next s
      else .next s

/-- ACCEPT (44_frame_deserializer.md R152): the comparison is on all 8 bits. -/
def acceptOp (s : State) (f : RxFrame) : Bool :=
  decide (f.receiver8 = addrByte s.localAddr) || decide (f.receiver8 = addrByte broadcast)

/-- What follows a completed buffer: the frame goes to ACCEPT and ROUTE, a failure is reported
(44_frame_deserializer.md R151, last lines; 60_exceptions.md R231). -/
def frameDone (s : State) (r : Deserialized) : Out :=
  match r with
  | .ok f => if acceptOp s f then routeOp s f else .next s
  | .fail e => .next (s.raise e)

/-- FA_PUSH (44_frame_deserializer.md R151). -/
def faPushOp (s : State) (d : Byte) : Out :=
  match memWrite s.faBuf s.faCount.toNat d with
  | none => .fault (.noSuchBufferByte s.faCount.toNat)
  | some buf =>
    let s1 := { s with faBuf := buf, faCount := s.faCount + 1 }
    if 5 ≤ s1.faCount.toNat then
      match bufRead buf 4 with
      | none => .fault (.unwrittenByte 4)
      | some len =>
        if len.toNat + frameOverhead ≤ s1.faCount.toNat then
          match memRead buf 0 s1.faCount.toNat with
          | none => .fault (.unwrittenByte (firstUnwritten buf 0 s1.faCount.toNat))
          | some bytes => frameDone { s1 with faCount := 0 } (deserializeOp s.cfg bytes)
        else .next s1
    else .next s1

/-- BM_RXBYTE in position SCAN (42_byte_marker_codec.md R122). -/
def bmScan (s : State) (b : Byte) : Out :=
  if b = s.cfg.marker then .next { s with bmPos := .cw } else .next s

/-- BM_RXBYTE in position CW (42_byte_marker_codec.md R123). -/
def bmTake (s : State) (b : Byte) : Out :=
  .next { s with bmCw := b, bmPos := .close }

/-- BM_RXBYTE in position END (42_byte_marker_codec.md R124). -/
def bmClose (s : State) (b : Byte) : Out :=
  if b = s.cfg.marker then
    let n := hdecOp s.cfg.nibbleBitOrder (byteCodeword s.bmCw)
    if s.bmHaveUpper then
      faPushOp { s with bmPos := .scan, bmHaveUpper := false } (assembleByte s.bmUpper n)
    else .next { s with bmPos := .scan, bmUpper := n, bmHaveUpper := true }
  else .next { s with bmPos := .scan }

/-- The whole deframer step (42_byte_marker_codec.md R126). -/
def bmRxByteOp (s : State) (b : Byte) : Out :=
  match s.bmPos with
  | .scan => bmScan s b
  | .cw => bmTake s b
  | .close => bmClose s b

/-- RETRY (45_connection_fsm.md R184) on slot `i` holding `c`: the frame first emitted, again. The rule's stated
condition (CONNECTING or DISCONNECTING, and `retry_count < MAX_RETRIES`, without which 00_scope.md R10 (d) forbids
the increment) guards it; elsewhere nothing happens (log 12). -/
def retryOp (s : State) (i : Nat) (c : Slot) : State :=
  if (c.state = .connecting ∨ c.state = .disconnecting) ∧ c.retryCount.toNat < s.cfg.maxRetries then
    let t := if c.state = .connecting then FrameType.link else FrameType.unlink
    ((s.emitFrame (s.ctl t c.remote)).setRetryCount i (c.retryCount + 1)).touch i
  else s

/-- GIVE_UP (45_connection_fsm.md R185) and IDLE_DROP (R186): to DISCONNECTED, nothing emitted. -/
def dropOp (s : State) (i : Nat) : State := s.setConnState i .disconnected

/-- What TICK does to slot `i` (45_connection_fsm.md R183, the body of its loop). -/
def tickSlot (s : State) (i : Nat) : State :=
  match s.conn[i]? with
  | none => s
  | some c =>
    let e := elapsed s.cfg.tsW s.now c.lastActivity
    match c.state with
    | .connecting =>
      if s.cfg.retryTimeout ≤ e then
        if c.retryCount.toNat < s.cfg.maxRetries then retryOp s i c else dropOp s i
      else s
    | .disconnecting =>
      if s.cfg.retryTimeout ≤ e then
        if c.retryCount.toNat < s.cfg.maxRetries then retryOp s i c else dropOp s i
      else s
    | .connected => if s.cfg.idleTimeout ≤ e then dropOp s i else s
    | .disconnected => s

/-- TICK over the slots of a list of indexes, in its order. -/
def tickSlots : List Nat → State → State
  | [], s => s
  | i :: is, s => tickSlots is (tickSlot s i)

end Sys2Proof.Machine
end

