-- ==== Sys2Proof/Machine/Command.lean ====
section
/-! DEFINITION. The meanings of the four host commands (45_connection_fsm.md R172 to R175). A rejected command
changes nothing but its `Status` (60_exceptions.md R232). -/

namespace Sys2Proof.Machine

/-- CMD_CONNECT (45_connection_fsm.md R172): an existing connection is tested before a free slot
(60_exceptions.md R235). -/
def execCmdConnect (r : Addr) (s : State) : Out :=
  match s.find r with
  | some i =>
    if s.slotState i = .connected then .next (s.raise .alreadyConnected) else .next (s.raise .alreadyPending)
  | none =>
    match s.free with
    | none => .next (s.raise .noFreeSlot)
    | some j =>
      let s1 := (s.setRemote j r).emitFrame (s.ctl .link r)
      .next ((((s1.setRetryCount j 0).touch j).setConnState j .connecting).output (.status .ok))

/-- CMD_DISCONNECT (45_connection_fsm.md R173). -/
def execCmdDisconnect (r : Addr) (s : State) : Out :=
  match s.find r with
  | none => .next (s.raise .notConnected)
  | some i =>
    if s.slotState i = .connected then
      let s1 := s.emitFrame (s.ctl .unlink r)
      .next ((((s1.setRetryCount i 0).touch i).setConnState i .disconnecting).output (.status .ok))
    else .next (s.raise .notConnected)

/-- CMD_SEND (45_connection_fsm.md R174). -/
def execCmdSend (r : Addr) (payload : List Byte) (s : State) : Out :=
  match s.find r with
  | none => .next (s.raise .notConnected)
  | some i =>
    if s.slotState i = .connected then
      let f : Frame := { receiver := r, sender := s.localAddr, type := .data, payload := payload }
      .next (((s.emitFrame f).touch i).output (.status .ok))
    else .next (s.raise .notConnected)

/-- CMD_ABORT (45_connection_fsm.md R175). -/
def execCmdAbort (r : Addr) (s : State) : Out :=
  match s.find r with
  | some i => .next ((s.setConnState i .disconnected).output (.status .ok))
  | none => .next (s.output (.status .ok))

end Sys2Proof.Machine
end

