-- ==== Sys2Proof/Machine/Inbound.lean ====
section
/-! DEFINITION. The meanings of the six inbound frame handlers (45_connection_fsm.md R176 to R181). -/

namespace Sys2Proof.Machine

/-- RX_DATA (45_connection_fsm.md R179). -/
def execRxData (i : Nat) (f : RxFrame) (s : State) : Out := rxDataOp s i f

/-- RX_LINK (45_connection_fsm.md R176); the payload is not looked at (R171). -/
def execRxLink (i : Nat) (_f : RxFrame) (s : State) : Out := rxLinkOp s i

/-- RX_UNLINK (45_connection_fsm.md R178); the payload is not looked at (R171). -/
def execRxUnlink (i : Nat) (_f : RxFrame) (s : State) : Out := rxUnlinkOp s i

/-- RX_ACK (45_connection_fsm.md R177). -/
def execRxAck (i : Nat) (f : RxFrame) (s : State) : Out := rxAckOp s i f

/-- RX_RETRY_REQUEST (45_connection_fsm.md R180): nothing in every state. -/
def execRxRetryRequest (i : Nat) (_f : RxFrame) (s : State) : Out := rxIgnoreOp s i

/-- RX_RESERVED (45_connection_fsm.md R181): nothing in every state. -/
def execRxReserved (i : Nat) (_f : RxFrame) (s : State) : Out := rxIgnoreOp s i

end Sys2Proof.Machine
end

