-- ==== Sys2Proof/Machine/LineCode.lean ====
section
/-! DEFINITION. The meanings of the pure functions HENC, HDEC, BM_ENC, SERIALIZE, DESERIALIZE, and of Emit. A pure
function writes no state of the block; its result goes to its caller (log 8). -/

namespace Sys2Proof.Machine

/-- HENC (40_hamming_encoder.md R100). -/
def execHenc (n : Nibble) (s : State) : Out :=
  .next (s.ret (.codeword (hencOp s.cfg.nibbleBitOrder n)))

/-- HDEC (41_hamming_decoder.md R110). -/
def execHdec (c : Codeword) (s : State) : Out :=
  .next (s.ret (.nibble (hdecOp s.cfg.nibbleBitOrder c)))

/-- BM_ENC (42_byte_marker_codec.md R120, R121). -/
def execBmEnc (bs : List Byte) (s : State) : Out :=
  .next (s.ret (.wire (bmEncOp s.cfg bs)))

/-- SERIALIZE (43_frame_serializer.md R140). -/
def execSerialize (f : Frame) (s : State) : Out :=
  .next (s.ret (.bytes (serializeOp s.cfg f)))

/-- DESERIALIZE (44_frame_deserializer.md R150): a failure goes to the caller, nothing else happens. -/
def execDeserialize (buf : List Byte) (s : State) : Out :=
  .next (s.ret (.deserialized (deserializeOp s.cfg buf)))

/-- Emit (43_frame_serializer.md R141). -/
def execEmit (f : Frame) (s : State) : Out :=
  .next (s.emitFrame f)

end Sys2Proof.Machine
end

