-- ==== Sys2Proof/Machine/Receive.lean ====
section
/-! DEFINITION. The meanings of the deframer's two events and of the internal steps a received byte sets off
(42_byte_marker_codec.md R122 to R126; 44_frame_deserializer.md R151 to R153; 45_connection_fsm.md R171). -/

namespace Sys2Proof.Machine

/-- BM_RXBYTE (42_byte_marker_codec.md R122 to R124, R126). -/
def execBmRxByte (b : Byte) (s : State) : Out := bmRxByteOp s b

/-- BM_RXTIMEOUT (42_byte_marker_codec.md R125), both settings of `BM_TIMEOUT_POLICY`. -/
def execBmRxTimeout (s : State) : Out :=
  match s.cfg.bmTimeoutPolicy with
  | .reset => .next { s with bmPos := .scan, bmHaveUpper := false }
  | .retain => .next s

/-- FA_PUSH (44_frame_deserializer.md R151). -/
def execFaPush (d : Byte) (s : State) : Out := faPushOp s d

/-- ACCEPT (44_frame_deserializer.md R152), its Boolean given to its caller. -/
def execAccept (f : RxFrame) (s : State) : Out := .next (s.ret (.accepted (acceptOp s f)))

/-- ROUTE (44_frame_deserializer.md R153). -/
def execRoute (f : RxFrame) (s : State) : Out := routeOp s f

/-- CONN_RX (45_connection_fsm.md R171). -/
def execConnRx (i : Nat) (f : RxFrame) (s : State) : Out := connRxOp s i f

end Sys2Proof.Machine
end

