-- ==== Sys2Proof/Machine/Timer.lean ====
section
/-! DEFINITION. The meanings of TICK and of its per-slot actions (45_connection_fsm.md R183 to R186). -/

namespace Sys2Proof.Machine

/-- TICK (45_connection_fsm.md R183): every slot, index 0 first. -/
def execTick (s : State) : Out := .next (tickSlots (List.range s.conn.length) s)

/-- RETRY by itself (45_connection_fsm.md R184; log 12). -/
def execRetry (i : Nat) (s : State) : Out :=
  match s.conn[i]? with
  | none => .fault (.noSuchSlot i)
  | some c => .next (retryOp s i c)

/-- GIVE_UP by itself (45_connection_fsm.md R185; log 12). -/
def execGiveUp (i : Nat) (s : State) : Out :=
  match s.conn[i]? with
  | none => .fault (.noSuchSlot i)
  | some _ => .next (dropOp s i)

/-- IDLE_DROP by itself (45_connection_fsm.md R186; log 12). -/
def execIdleDrop (i : Nat) (s : State) : Out :=
  match s.conn[i]? with
  | none => .fault (.noSuchSlot i)
  | some _ => .next (dropOp s i)

end Sys2Proof.Machine
end

