-- ==== Sys2Proof/Machine/Dispatch.lean ====
section
/-! DEFINITION. The one match over the operations of spec/opcode_table.json, in the table's order. -/

namespace Sys2Proof.Machine

def exec (i : Instr) (s : State) : Host.Outcome State Fault Refusal :=
  match i with
  | .henc n => Sys2Proof.Machine.execHenc n s
  | .hdec c => Sys2Proof.Machine.execHdec c s
  | .bmEnc bs => Sys2Proof.Machine.execBmEnc bs s
  | .bmRxByte b => Sys2Proof.Machine.execBmRxByte b s
  | .bmRxTimeout => Sys2Proof.Machine.execBmRxTimeout s
  | .serialize f => Sys2Proof.Machine.execSerialize f s
  | .emit f => Sys2Proof.Machine.execEmit f s
  | .deserialize buf => Sys2Proof.Machine.execDeserialize buf s
  | .faPush d => Sys2Proof.Machine.execFaPush d s
  | .accept f => Sys2Proof.Machine.execAccept f s
  | .route f => Sys2Proof.Machine.execRoute f s
  | .connRx k f => Sys2Proof.Machine.execConnRx k f s
  | .cmdConnect r => Sys2Proof.Machine.execCmdConnect r s
  | .cmdDisconnect r => Sys2Proof.Machine.execCmdDisconnect r s
  | .cmdSend r payload => Sys2Proof.Machine.execCmdSend r payload s
  | .cmdAbort r => Sys2Proof.Machine.execCmdAbort r s
  | .rxData k f => Sys2Proof.Machine.execRxData k f s
  | .rxLink k f => Sys2Proof.Machine.execRxLink k f s
  | .rxUnlink k f => Sys2Proof.Machine.execRxUnlink k f s
  | .rxAck k f => Sys2Proof.Machine.execRxAck k f s
  | .rxRetryRequest k f => Sys2Proof.Machine.execRxRetryRequest k f s
  | .rxReserved k f => Sys2Proof.Machine.execRxReserved k f s
  | .tick => Sys2Proof.Machine.execTick s
  | .retry k => Sys2Proof.Machine.execRetry k s
  | .giveUp k => Sys2Proof.Machine.execGiveUp k s
  | .idleDrop k => Sys2Proof.Machine.execIdleDrop k s

end Sys2Proof.Machine
end

