-- ==== Sys2Proof/Machine/Step.lean ====
section
/-! DEFINITION. One step of the machine takes one event (00_scope.md R15, 20_memory.md R57). -/

namespace Sys2Proof.Machine

/-- The constraints of 00_scope.md R7 on the configuration and on `LOCAL_ADDR`. -/
def State.configOk (s : State) : Bool := s.cfg.valid && decide (s.localAddr ≠ broadcast)

/-- `s` with the first event of the schedule taken: its time is the current one. -/
def State.taking (s : State) (e : Event) (rest : List Event) : State :=
  { s with time := e.time, inputs := rest }

/-- Take one input: `rst`, or the word a port presents. -/
def takeInput (inp : Input) (s : State) : Out :=
  match inp with
  | .rst a => if a = broadcast then .refused .badConfiguration else .next (s.applyReset a)
  | .word p =>
    match decode s.cfg p with
    | .instr i => exec i s
    | .noEvent => .next s
    | .reject e => .refused (.rejected e)

/-- `step` (00_scope.md R15): the next event of the schedule is decoded and run. With no event left the block is idle
(R14: it "has no spontaneous step"). A configuration R7 excludes, and an event earlier than the last, are refused
(93_implementation_defined.md U10, U19). -/
def step (s : State) : Host.Outcome State Fault Refusal :=
  if s.configOk then
    match s.inputs with
    | [] => .next s
    | e :: rest =>
      if e.time < s.time then .refused .timeWentBack
      else takeInput e.input (s.taking e rest)
  else .refused .badConfiguration

/-- `s` with a word of the opcode table presented next, at the current time (logs 9, 10). -/
def State.withFetchWord (s : State) (nbits w : Nat) : State :=
  { s with inputs := (tableWords nbits w).map (fun p => ⟨s.time, .word p⟩) ++ s.inputs }

end Sys2Proof.Machine
end

