-- ==== Sys2Proof/Safety.lean ====
section
/-! DEFINITION. The terms claims use: the events of the agents, the invariants of 10_state.md R29, the runs of wire bytes
and of ticks, what the host can mirror from `Notify`, and when two states mean the same
(93_implementation_defined.md U13). -/

namespace Sys2Proof

/-- The seven events of 00_scope.md R14, as operations. -/
def Instr.agentEvent : Instr → Bool
  | .bmRxByte _ => true
  | .bmRxTimeout => true
  | .cmdConnect _ => true
  | .cmdDisconnect _ => true
  | .cmdSend _ _ => true
  | .cmdAbort _ => true
  | .tick => true
  | .henc _ => false
  | .hdec _ => false
  | .bmEnc _ => false
  | .serialize _ => false
  | .emit _ => false
  | .deserialize _ => false
  | .faPush _ => false
  | .accept _ => false
  | .route _ => false
  | .connRx _ _ => false
  | .rxData _ _ => false
  | .rxLink _ _ => false
  | .rxUnlink _ _ => false
  | .rxAck _ _ => false
  | .rxRetryRequest _ _ => false
  | .rxReserved _ _ => false
  | .retry _ => false
  | .giveUp _ => false
  | .idleDrop _ => false

end Sys2Proof

namespace Sys2Proof.Machine

/-- An input an agent or reset presents: ports RXP, CMD, TICK, and `rst` (00_scope.md R14, 10_state.md R33). -/
def Input.agentEvent : Input → Bool
  | .rst _ => true
  | .word p => decide (p.port = .rxp) || decide (p.port = .cmd) || decide (p.port = .tick)

/-- Only agents' events are still to come. -/
def State.agentEventsOnly (s : State) : Bool := s.inputs.all (fun e => e.input.agentEvent)

/-- The bytes buffered so far, `fa_buf[0..fa_count)` (10_state.md R26). -/
def State.buffered (s : State) : Option (List Byte) := memRead s.faBuf 0 s.faCount.toNat

/-- The frame buffer between operations: canonical, every byte below `fa_count` written, `fa_count <= 260` (I-3), and
`fa_count < fa_buf[4] + 6` once five bytes are present (I-5) (10_state.md R29). -/
structure BufferOk (s : State) : Prop where
  canonical : Memory.wf s.faBuf = true
  count_le : s.faCount.toNat ≤ 260
  written : ∀ k, k < s.faCount.toNat → (bufRead s.faBuf k).isSome
  unfinished : ∀ len, 5 ≤ s.faCount.toNat → bufRead s.faBuf 4 = some len →
    s.faCount.toNat < len.toNat + frameOverhead

/-- I-1 of 10_state.md R29: at most one slot in use for a peer. -/
def OneSlotPerPeer (conn : List Slot) : Prop :=
  ∀ (i j : Nat) (c d : Slot), conn[i]? = some c → conn[j]? = some d → c.live = true → d.live = true →
    c.remote = d.remote → i = j

/-- The connection table: `N_CONN` slots, I-1 and I-2 of 10_state.md R29, timestamps of `TS_W` bits (R27). -/
structure TableOk (s : State) : Prop where
  size : s.conn.length = s.cfg.nConn
  one_slot : OneSlotPerPeer s.conn
  retries : ∀ c ∈ s.conn, c.retryCount.toNat ≤ s.cfg.maxRetries
  stamps : ∀ c ∈ s.conn, c.lastActivity < 2 ^ s.cfg.tsW

/-- The invariants of 10_state.md R29, with a legal configuration and local address (00_scope.md R7) and nothing but
agents' events to come. I-4 holds by the types of `bmPos` and `Slot.state`. -/
structure Inv (s : State) : Prop where
  config : s.configOk = true
  buffer : BufferOk s
  table : TableOk s
  events : s.agentEventsOnly = true

/-- Go on from an outcome's next state; a stop stays. -/
def andThen (o : Out) (k : State → Out) : Out :=
  match o with
  | .next s => k s
  | .fault r => .fault r
  | .refused r => .refused r

/-- A run of `RX_BYTE` events, the first byte first (42_byte_marker_codec.md R126). -/
def feed : List Byte → State → Out
  | [], s => .next s
  | b :: bs, s => andThen (exec (.bmRxByte b) s) (feed bs)

/-- TICK at real tick count `t`. -/
def tickAt (t : Nat) (s : State) : Out := exec .tick { s with time := t }

/-- A run of TICKs at the given real tick counts. -/
def tickRun : List Nat → State → Out
  | [], s => .next s
  | t :: ts, s => andThen (tickAt t s) (tickRun ts)

/-- At real tick count `t` slot `c` has a timeout that has elapsed, if it is in use (45_connection_fsm.md R183). -/
def Slot.due (cfg : Config) (t : Nat) (c : Slot) : Prop :=
  match c.state with
  | .disconnected => True
  | .connected => cfg.idleTimeout ≤ elapsed cfg.tsW (t % 2 ^ cfg.tsW) c.lastActivity
  | .connecting => cfg.retryTimeout ≤ elapsed cfg.tsW (t % 2 ^ cfg.tsW) c.lastActivity
  | .disconnecting => cfg.retryTimeout ≤ elapsed cfg.tsW (t % 2 ^ cfg.tsW) c.lastActivity

/-- A run of TICKs at each of which every slot in use is due. -/
def DueRun : List Nat → State → Prop
  | [], _ => True
  | t :: ts, s => (∀ c ∈ s.conn, c.due s.cfg t) ∧ ∀ s', tickAt t s = .next s' → DueRun ts s'

/-- What a host that watches `Notify` makes of one output: it sets the slot's state, if the old state is the one it
holds; none where the notification disagrees with it or reports no change (10_state.md R30, R38). -/
def mirrorOne (states : List ConnState) (o : Output) : Option (List ConnState) :=
  match o with
  | .notify i _ old new =>
    if states[i]? = some old ∧ old ≠ new then some (states.set i new) else none
  | .tx _ => some states
  | .deliver _ _ => some states
  | .status _ => some states
  | .frameErr _ => some states

/-- The host's mirror after a list of outputs. -/
def mirror : List Output → List ConnState → Option (List ConnState)
  | [], states => some states
  | o :: os, states =>
    match mirrorOne states o with
    | some states' => mirror os states'
    | none => none

/-- Slots that differ only in elements that are not meaningful in their state (10_state.md R27): `remote` and
`last_activity` of a DISCONNECTED slot, `retry_count` outside CONNECTING and DISCONNECTING. -/
def Slot.sameMeaning (c d : Slot) : Prop :=
  c.state = d.state ∧
  (c.state ≠ .disconnected → c.remote = d.remote ∧ c.lastActivity = d.lastActivity) ∧
  (c.state = .connecting ∨ c.state = .disconnecting → c.retryCount = d.retryCount)

/-- States that differ only in elements that are not meaningful (10_state.md R25 to R27;
93_implementation_defined.md U13): `bm_cw` outside END, `bm_upper` with `bm_have_upper == 0`, the buffer at and above
`fa_count`, and the elements `Slot.sameMeaning` names. -/
structure SameMeaning (s t : State) : Prop where
  cfg : s.cfg = t.cfg
  localAddr : s.localAddr = t.localAddr
  bmPos : s.bmPos = t.bmPos
  bmCw : s.bmPos = .close → s.bmCw = t.bmCw
  bmHaveUpper : s.bmHaveUpper = t.bmHaveUpper
  bmUpper : s.bmHaveUpper = true → s.bmUpper = t.bmUpper
  faCount : s.faCount = t.faCount
  faBuf : ∀ k, k < s.faCount.toNat → bufRead s.faBuf k = bufRead t.faBuf k
  size : s.conn.length = t.conn.length
  conn : ∀ (i : Nat) (c d : Slot), s.conn[i]? = some c → t.conn[i]? = some d → c.sameMeaning d
  time : s.time = t.time
  inputs : s.inputs = t.inputs
  out : s.out = t.out
  results : s.results = t.results

/-- Outcomes that are the same stop, or next states of the same meaning. -/
def SameOutcome (o p : Out) : Prop :=
  match o, p with
  | .next s, .next t => SameMeaning s t
  | .fault r, .fault q => r = q
  | .refused r, .refused q => r = q
  | .next _, .fault _ => False
  | .next _, .refused _ => False
  | .fault _, .next _ => False
  | .fault _, .refused _ => False
  | .refused _, .next _ => False
  | .refused _, .fault _ => False

end Sys2Proof.Machine
end

