-- ==== Sys2Proof/Certificates/Slice0/Terms.lean ====
section
/-! DEFINITION. The terms of this slice's statements: the tables of 40_hamming_encoder.md R101 and
41_hamming_decoder.md R114 as the spec prints them, a line with flipped bits, the cells of the transition matrix of
45_connection_fsm.md R182, and the rows a slot's change can be. -/

namespace Sys2Proof.Terms

open Sys2Proof.Machine

/-- Column "lsb_first cw" of 40_hamming_encoder.md R101. -/
def hencLsb : List Codeword :=
  [0x00, 0x07, 0x19, 0x1E, 0x2A, 0x2D, 0x33, 0x34, 0x4B, 0x4C, 0x52, 0x55, 0x61, 0x66, 0x78, 0x7F]

/-- Column "msb_first cw" of 40_hamming_encoder.md R101. -/
def hencMsb : List Codeword :=
  [0x00, 0x4B, 0x2A, 0x61, 0x19, 0x52, 0x33, 0x78, 0x07, 0x4C, 0x2D, 0x66, 0x1E, 0x55, 0x34, 0x7F]

/-- The table of HENC under a bit order. -/
def hencTable : NibbleBitOrder → List Codeword
  | .lsbFirst => hencLsb
  | .msbFirst => hencMsb

/-- Rows 0x00 to 0x38 of 41_hamming_decoder.md R114, each cell (nibble, pos). -/
def hdecLowRows : List (Nibble × Nat) :=
  [(0x0, 0), (0x0, 1), (0x0, 2), (0x1, 3), (0x0, 3), (0x1, 2), (0x1, 1), (0x1, 0)] ++
  [(0x0, 4), (0x2, 5), (0x4, 6), (0x8, 7), (0x9, 7), (0x5, 6), (0x3, 5), (0x1, 4)] ++
  [(0x0, 5), (0x2, 4), (0xA, 7), (0x6, 6), (0x7, 6), (0xB, 7), (0x3, 4), (0x1, 5)] ++
  [(0x2, 1), (0x2, 0), (0x3, 3), (0x2, 2), (0x3, 2), (0x2, 3), (0x3, 0), (0x3, 1)] ++
  [(0x0, 6), (0xC, 7), (0x4, 4), (0x6, 5), (0x7, 5), (0x5, 4), (0xD, 7), (0x1, 6)] ++
  [(0x4, 2), (0x5, 3), (0x4, 0), (0x4, 1), (0x5, 1), (0x5, 0), (0x4, 3), (0x5, 2)] ++
  [(0x7, 3), (0x6, 2), (0x6, 1), (0x6, 0), (0x7, 0), (0x7, 1), (0x7, 2), (0x6, 3)] ++
  [(0xE, 7), (0x2, 6), (0x4, 5), (0x6, 4), (0x7, 4), (0x5, 5), (0x3, 6), (0xF, 7)]

/-- Rows 0x40 to 0x78 of 41_hamming_decoder.md R114. -/
def hdecHighRows : List (Nibble × Nat) :=
  [(0x0, 7), (0xC, 6), (0xA, 5), (0x8, 4), (0x9, 4), (0xB, 5), (0xD, 6), (0x1, 7)] ++
  [(0x9, 3), (0x8, 2), (0x8, 1), (0x8, 0), (0x9, 0), (0x9, 1), (0x9, 2), (0x8, 3)] ++
  [(0xA, 2), (0xB, 3), (0xA, 0), (0xA, 1), (0xB, 1), (0xB, 0), (0xA, 3), (0xB, 2)] ++
  [(0xE, 6), (0x2, 7), (0xA, 4), (0x8, 5), (0x9, 5), (0xB, 4), (0x3, 7), (0xF, 6)] ++
  [(0xC, 1), (0xC, 0), (0xD, 3), (0xC, 2), (0xD, 2), (0xC, 3), (0xD, 0), (0xD, 1)] ++
  [(0xE, 5), (0xC, 4), (0x4, 7), (0x8, 6), (0x9, 6), (0x5, 7), (0xD, 4), (0xF, 5)] ++
  [(0xE, 4), (0xC, 5), (0xA, 6), (0x6, 7), (0x7, 7), (0xB, 6), (0xD, 5), (0xF, 4)] ++
  [(0xE, 0), (0xE, 1), (0xE, 2), (0xF, 3), (0xE, 3), (0xF, 2), (0xF, 1), (0xF, 0)]

/-- The cell of 41_hamming_decoder.md R114 for a codeword. -/
def hdecCell (c : Codeword) : Nibble × Nat := (hdecLowRows ++ hdecHighRows).getD c.toNat (0, 0)

/-- `{n[0], n[1], n[2], n[3]}` (41_hamming_decoder.md R114). -/
def reverseNibble (n : Nibble) : Nibble :=
  BitVec.ofBool (n.getLsbD 0) ++ BitVec.ofBool (n.getLsbD 1) ++ BitVec.ofBool (n.getLsbD 2) ++
    BitVec.ofBool (n.getLsbD 3)

/-- The nibble of 41_hamming_decoder.md R114 under a bit order. -/
def hdecNibble (o : NibbleBitOrder) (c : Codeword) : Nibble :=
  match o with
  | .lsbFirst => (hdecCell c).1
  | .msbFirst => reverseNibble (hdecCell c).1

/-- In how many bit positions two codewords differ. -/
def distance (a b : Codeword) : Nat := (List.range 7).countP (fun k => a.getLsbD k != b.getLsbD k)

/-- A wire byte with at most one of its eight bits flipped. -/
def flipped (b : Byte) : Option (Fin 8) → Byte
  | none => b
  | some p => b ^^^ (1#8 <<< p.val)

/-- BM_ENC1 of a byte after a line that flips at most one bit of each codeword byte and no marker. -/
def noisyByte (cfg : Config) (b : Byte) (e : Option (Fin 8) × Option (Fin 8)) : List Byte :=
  [cfg.marker, flipped (cwb cfg.nibbleBitOrder (upperNibble b)) e.1, cfg.marker,
   cfg.marker, flipped (cwb cfg.nibbleBitOrder (lowerNibble b)) e.2, cfg.marker]

/-- BM_ENC of a byte sequence after such a line; bytes beyond the list of errors are undamaged. -/
def noisyWire (cfg : Config) : List Byte → List (Option (Fin 8) × Option (Fin 8)) → List Byte
  | [], _ => []
  | b :: bs, [] => noisyByte cfg b (none, none) ++ noisyWire cfg bs []
  | b :: bs, e :: es => noisyByte cfg b e ++ noisyWire cfg bs es

/-- FA_PUSH of each byte in order, the deframer's `bm_cw` and `bm_upper` being what the byte's two units leave. -/
def pushAll : List Byte → State → Out
  | [], s => .next s
  | b :: bs, s =>
    andThen
      (exec (.faPush b) { s with bmCw := cwb s.cfg.nibbleBitOrder (lowerNibble b), bmUpper := upperNibble b })
      (pushAll bs)

/-- The wire bytes of a control frame from this node (45_connection_fsm.md R170). -/
def ctlWire (s : State) (t : FrameType) (r : Addr) : List Byte :=
  bmEncOp s.cfg (serializeOp s.cfg { receiver := r, sender := s.localAddr, type := t, payload := [] })

/-- The inbound rows of the matrix of 45_connection_fsm.md R182: what the slot becomes and what is output, for a
considered frame `f` at slot `i` holding `c`. -/
def inboundCell (s : State) (i : Nat) (c : Slot) (f : RxFrame) : Slot × List Output :=
  match c.state with
  | .disconnected =>
    if f.type8 = 0x02 then
      ({ state := .connected, remote := c.remote, lastActivity := s.now, retryCount := 0 },
       [.tx (ctlWire s .ack c.remote), .notify i c.remote .disconnected .connected])
    else (c, [])
  | .connecting =>
    if f.type8 = 0x04 then
      ({ state := .connected, remote := c.remote, lastActivity := s.now, retryCount := c.retryCount },
       [.notify i c.remote .connecting .connected])
    else (c, [])
  | .connected =>
    if f.type8 = 0x03 then
      ({ c with state := .disconnected },
       [.tx (ctlWire s .ack c.remote), .notify i c.remote .connected .disconnected])
    else if f.type8 = 0x01 then
      ({ c with lastActivity := s.now },
       .deliver c.remote f.payload :: (if s.cfg.ackOnData then [.tx (ctlWire s .ack c.remote)] else []))
    else (c, [])
  | .disconnecting =>
    if f.type8 = 0x04 then
      ({ c with state := .disconnected }, [.notify i c.remote .disconnecting .disconnected])
    else (c, [])

/-- The TICK rows of the matrix of 45_connection_fsm.md R182 for slot `i` holding `c`. -/
def tickCell (s : State) (i : Nat) (c : Slot) : Slot × List Output :=
  match c.state with
  | .disconnected => (c, [])
  | .connecting =>
    if s.cfg.retryTimeout ≤ elapsed s.cfg.tsW s.now c.lastActivity then
      if c.retryCount.toNat < s.cfg.maxRetries then
        ({ c with retryCount := c.retryCount + 1, lastActivity := s.now }, [.tx (ctlWire s .link c.remote)])
      else ({ c with state := .disconnected }, [.notify i c.remote .connecting .disconnected])
    else (c, [])
  | .disconnecting =>
    if s.cfg.retryTimeout ≤ elapsed s.cfg.tsW s.now c.lastActivity then
      if c.retryCount.toNat < s.cfg.maxRetries then
        ({ c with retryCount := c.retryCount + 1, lastActivity := s.now }, [.tx (ctlWire s .unlink c.remote)])
      else ({ c with state := .disconnected }, [.notify i c.remote .disconnecting .disconnected])
    else (c, [])
  | .connected =>
    if s.cfg.idleTimeout ≤ elapsed s.cfg.tsW s.now c.lastActivity then
      ({ c with state := .disconnected }, [.notify i c.remote .connected .disconnected])
    else (c, [])

/-- The received byte `b` completes frame `f`, addressed to this node: it closes the second unit of a byte
(42_byte_marker_codec.md R124), and that byte makes the buffered bytes a frame (44_frame_deserializer.md R151, R153). -/
def CompletesFrame (s : State) (b : Byte) (f : RxFrame) : Prop :=
  s.bmPos = .close ∧ b = s.cfg.marker ∧ s.bmHaveUpper = true ∧
  (∃ bs, s.buffered = some bs ∧
    deserializeOp s.cfg
      (bs ++ [assembleByte s.bmUpper (hdecOp s.cfg.nibbleBitOrder (s.bmCw.setWidth 7))]) = .ok f) ∧
  f.receiver8 = s.localAddr.setWidth 8

/-- The event of an inbound row of 45_connection_fsm.md R182: a received byte completes a frame of TYPE `ty` from peer
`r`. -/
def InboundFrom (s : State) (op : Instr) (r : Addr) (ty : Byte) : Prop :=
  ∃ b f, op = .bmRxByte b ∧ CompletesFrame s b f ∧ f.type8 = ty ∧ f.sender8 = r.setWidth 8

/-- A slot's change from `c` to `d` by operation `op` in state `s` is a row of 45_connection_fsm.md R182: S1 to S12, the
SEND row or the ABORT row, by the event of that row. -/
def IsRow (s : State) (op : Instr) (c d : Slot) : Prop :=
  -- S1
  (∃ r, op = .cmdConnect r ∧ s.find r = none ∧ c.state = .disconnected ∧
    d = { state := .connecting, remote := r, lastActivity := s.now, retryCount := 0 }) ∨
  -- S2
  (∃ r, InboundFrom s op r 0x02 ∧ s.find r = none ∧ c.state = .disconnected ∧
    d = { state := .connected, remote := r, lastActivity := s.now, retryCount := 0 }) ∨
  -- S3
  (InboundFrom s op c.remote 0x04 ∧ c.state = .connecting ∧
    d = { c with state := .connected, lastActivity := s.now }) ∨
  -- S4, S11
  (op = .tick ∧ (c.state = .connecting ∨ c.state = .disconnecting) ∧
    s.cfg.retryTimeout ≤ elapsed s.cfg.tsW s.now c.lastActivity ∧ c.retryCount.toNat < s.cfg.maxRetries ∧
    d = { c with retryCount := c.retryCount + 1, lastActivity := s.now }) ∨
  -- S5, S12
  (op = .tick ∧ (c.state = .connecting ∨ c.state = .disconnecting) ∧
    s.cfg.retryTimeout ≤ elapsed s.cfg.tsW s.now c.lastActivity ∧ s.cfg.maxRetries ≤ c.retryCount.toNat ∧
    d = { c with state := .disconnected }) ∨
  -- S6
  (op = .cmdDisconnect c.remote ∧ c.state = .connected ∧
    d = { c with state := .disconnecting, lastActivity := s.now, retryCount := 0 }) ∨
  -- S7
  (InboundFrom s op c.remote 0x03 ∧ c.state = .connected ∧ d = { c with state := .disconnected }) ∨
  -- S8
  (InboundFrom s op c.remote 0x01 ∧ c.state = .connected ∧ d = { c with lastActivity := s.now }) ∨
  -- S9
  (op = .tick ∧ c.state = .connected ∧ s.cfg.idleTimeout ≤ elapsed s.cfg.tsW s.now c.lastActivity ∧
    d = { c with state := .disconnected }) ∨
  -- S10
  (InboundFrom s op c.remote 0x04 ∧ c.state = .disconnecting ∧ d = { c with state := .disconnected }) ∨
  -- CMD_SEND
  (∃ p, op = .cmdSend c.remote p ∧ c.state = .connected ∧ d = { c with lastActivity := s.now }) ∨
  -- CMD_ABORT
  (op = .cmdAbort c.remote ∧ c.state ≠ .disconnected ∧ d = { c with state := .disconnected })

/-- The frame a CONNECTING or DISCONNECTING slot has pending, on the wire (45_connection_fsm.md R184). -/
def pendingWire (s : State) (c : Slot) : List Byte :=
  ctlWire s (if c.state = .connecting then .link else .unlink) c.remote

/-- The outputs of a TICK in state `u` that leads to `v`: those of the slots below `k` as their cells say, then `os`, then
those of the slots above (45_connection_fsm.md R183). -/
def TickOutputsAt (u v : State) (k : Nat) (os : List Output) : Prop :=
  v.out = u.out ++ (u.conn.zipIdx.take k).flatMap (fun p => (tickCell u p.2 p.1).2) ++ os ++
    (u.conn.zipIdx.drop (k + 1)).flatMap (fun p => (tickCell u p.2 p.1).2)

/-- Real tick counts at which a pending frame last emitted at `t0` is due, again and again
(45_connection_fsm.md R188): each at least `RETRY_TIMEOUT` and less than `2^TS_W` after the one before. -/
def RetryTimes (cfg : Config) : Nat → List Nat → Prop
  | _, [] => True
  | t0, t :: ts => t0 + cfg.retryTimeout ≤ t ∧ t < t0 + 2 ^ cfg.tsW ∧ RetryTimes cfg t ts

end Sys2Proof.Terms
end

