-- ==== Sys2Proof/Certificates/Slice0/Obligations.lean ====
section
/-! DEFINITION. The statements of this slice. Each docstring names the rule it formalises. A next state is written as the
whole state with the fields that change, so every statement of that form is the operation's frame too: every other
register, and every byte of the frame buffer, is unchanged. -/

open Sys2Proof Sys2Proof.Machine Sys2Proof.Terms

/-! ### The line code -/

/-- 40_hamming_encoder.md R101: HENC is the printed table under each bit order, and the 16 codewords are the same set
under both. -/
def Obligations.HencGivesTable : Prop :=
  (∀ (s : State) (n : Nibble),
    exec (.henc n) s =
      .next { s with results := s.results ++ [.codeword ((hencTable s.cfg.nibbleBitOrder).getD n.toNat 0)] }) ∧
  (∀ c : Codeword, c ∈ hencLsb ↔ c ∈ hencMsb)

/-- 40_hamming_encoder.md R100: HENC's codeword satisfies the parity equations over d1 to d4 and carries d1 to d4 in bits
2, 4, 5, 6, under each bit order. -/
def Obligations.HencFollowsParityEquations : Prop :=
  ∀ (s : State) (n : Nibble) (d1 d2 d3 d4 : Bool),
    (s.cfg.nibbleBitOrder = .lsbFirst →
      d1 = n.getLsbD 0 ∧ d2 = n.getLsbD 1 ∧ d3 = n.getLsbD 2 ∧ d4 = n.getLsbD 3) →
    (s.cfg.nibbleBitOrder = .msbFirst →
      d1 = n.getLsbD 3 ∧ d2 = n.getLsbD 2 ∧ d3 = n.getLsbD 1 ∧ d4 = n.getLsbD 0) →
    ∃ cw : Codeword,
      exec (.henc n) s = .next { s with results := s.results ++ [.codeword cw] } ∧
      cw.getLsbD 0 = (d1 ^^ d2 ^^ d4) ∧ cw.getLsbD 1 = (d1 ^^ d3 ^^ d4) ∧ cw.getLsbD 2 = d1 ∧
      cw.getLsbD 3 = (d2 ^^ d3 ^^ d4) ∧ cw.getLsbD 4 = d2 ∧ cw.getLsbD 5 = d3 ∧ cw.getLsbD 6 = d4

/-- 41_hamming_decoder.md R114: HDEC is the printed table on all 128 values, nibbles bit-reversed under msb_first, with the
printed error positions; a byte 0x80 + c decodes as c. -/
def Obligations.HdecGivesTable : Prop :=
  (∀ (s : State) (c : Codeword),
    exec (.hdec c) s =
      .next { s with results := s.results ++ [.nibble (hdecNibble s.cfg.nibbleBitOrder c)] }) ∧
  (∀ c : Codeword, errorPosition c = (hdecCell c).2) ∧
  (∀ c : Codeword, byteCodeword (0x80 + codewordByte c) = c)

/-- 41_hamming_decoder.md R112 (a) to (e). -/
def Obligations.HammingCorrectsOneFlip : Prop :=
  ∀ o : NibbleBitOrder,
    (∀ v : Nibble, hdecOp o (hencOp o v) = v ∧ errorPosition (hencOp o v) = 0) ∧
    (∀ (v : Nibble) (p : Fin 7),
      hdecOp o (flipBit (hencOp o v) p.val) = v ∧ errorPosition (flipBit (hencOp o v) p.val) = p.val + 1) ∧
    (∀ c : Codeword, distance c (hencOp o (hdecOp o c)) ≤ 1 ∧
      ∀ v : Nibble, distance c (hencOp o v) ≤ 1 → v = hdecOp o c)

/-- 40_hamming_encoder.md R102 (a) to (e): injective, linear, minimum distance 3, decoded back with at most one flip, and
below 0x80 as a codeword byte. -/
def Obligations.HencIsALinearDistanceThreeCode : Prop :=
  ∀ o : NibbleBitOrder,
    (∀ a b : Nibble, hencOp o a = hencOp o b → a = b) ∧
    (∀ a b : Nibble, hencOp o (a ^^^ b) = hencOp o a ^^^ hencOp o b) ∧
    (∀ a b : Nibble, a ≠ b → 3 ≤ distance (hencOp o a) (hencOp o b)) ∧
    (∃ a b : Nibble, distance (hencOp o a) (hencOp o b) = 3) ∧
    (∀ v : Nibble, hdecOp o (hencOp o v) = v) ∧
    (∀ (v : Nibble) (p : Fin 7), hdecOp o (flipBit (hencOp o v) p.val) = v) ∧
    (∀ n : Nibble, (codewordByte (hencOp o n)).toNat < 0x80)

/-! ### The byte marker codec -/

/-- 42_byte_marker_codec.md R120, R121: BM_ENC gives two units for each byte, the upper nibble's first, `6*k` wire bytes
for `k` bytes. -/
def Obligations.BmEncGivesTwoUnitsPerByte : Prop :=
  (∀ (s : State) (bs : List Byte),
    ∃ w : List Byte,
      exec (.bmEnc bs) s = .next { s with results := s.results ++ [.wire w] } ∧
      w.length = 6 * bs.length ∧
      ∀ k, k < bs.length →
        (w.drop (6 * k)).take 6 =
          [s.cfg.marker, codewordByte (hencOp s.cfg.nibbleBitOrder (upperNibble (bs.getD k 0))), s.cfg.marker,
           s.cfg.marker, codewordByte (hencOp s.cfg.nibbleBitOrder (lowerNibble (bs.getD k 0))), s.cfg.marker])

/-- 42_byte_marker_codec.md R122. -/
def Obligations.DeframerScansForMarker : Prop :=
  ∀ (s : State) (b : Byte), s.bmPos = .scan →
    (b = s.cfg.marker → exec (.bmRxByte b) s = .next { s with bmPos := .cw }) ∧
    (b ≠ s.cfg.marker → exec (.bmRxByte b) s = .next s)

/-- 42_byte_marker_codec.md R123. -/
def Obligations.DeframerTakesCodewordByte : Prop :=
  ∀ (s : State) (b : Byte), s.bmPos = .cw →
    exec (.bmRxByte b) s = .next { s with bmCw := b, bmPos := .close }

/-- 42_byte_marker_codec.md R124: a bad unit is dropped with the upper nibble kept, a good unit stores an upper nibble or
pushes the assembled byte in the same step. -/
def Obligations.DeframerClosesUnit : Prop :=
  ∀ (s : State) (b : Byte), s.bmPos = .close →
    (b ≠ s.cfg.marker → exec (.bmRxByte b) s = .next { s with bmPos := .scan }) ∧
    (b = s.cfg.marker → s.bmHaveUpper = false →
      exec (.bmRxByte b) s =
        .next { s with bmPos := .scan, bmHaveUpper := true,
                       bmUpper := hdecOp s.cfg.nibbleBitOrder (s.bmCw.setWidth 7) }) ∧
    (b = s.cfg.marker → s.bmHaveUpper = true →
      exec (.bmRxByte b) s =
        exec (.faPush (assembleByte s.bmUpper (hdecOp s.cfg.nibbleBitOrder (s.bmCw.setWidth 7))))
          { s with bmPos := .scan, bmHaveUpper := false })

/-- 42_byte_marker_codec.md R125: both settings of `BM_TIMEOUT_POLICY`, and repeated timeouts are idempotent. -/
def Obligations.DeframerReadTimeout : Prop :=
  ∀ s : State,
    (s.cfg.bmTimeoutPolicy = .reset →
      exec .bmRxTimeout s = .next { s with bmPos := .scan, bmHaveUpper := false }) ∧
    (s.cfg.bmTimeoutPolicy = .retain → exec .bmRxTimeout s = .next s) ∧
    (∀ t, exec .bmRxTimeout s = .next t → exec .bmRxTimeout t = .next t)

/-- 42_byte_marker_codec.md R127 (a), (b): from SCAN with no pending nibble the six wire bytes of one byte, each codeword
byte with at most one of its eight bits flipped, push exactly that byte, on the sixth. -/
def Obligations.FramedByteSurvivesOneFlipPerCodeword : Prop :=
  ∀ (s : State) (b : Byte) (e : Option (Fin 8) × Option (Fin 8)), s.bmPos = .scan → s.bmHaveUpper = false →
    feed (noisyByte s.cfg b e) s =
      exec (.faPush b)
        { s with bmCw := flipped (cwb s.cfg.nibbleBitOrder (lowerNibble b)) e.2, bmUpper := upperNibble b } ∧
    ∃ t, feed ((noisyByte s.cfg b e).dropLast) s = .next t ∧ t.faCount = s.faCount ∧ t.faBuf = s.faBuf

/-- 42_byte_marker_codec.md R127 (c): from SCAN with no pending nibble, BM_ENC of a byte sequence pushes exactly its bytes
in order. -/
def Obligations.FramedBytesArePushedInOrder : Prop :=
  ∀ (bs : List Byte) (s : State), s.bmPos = .scan → s.bmHaveUpper = false →
    feed (bmEncOp s.cfg bs) s = pushAll bs s

/-- 42_byte_marker_codec.md R128: starting one byte late into a run of units none of whose codeword bytes is MARKER, the
deframer decodes nothing. -/
def Obligations.LateStartDecodesNothing : Prop :=
  ∀ (bs : List Byte) (s : State), s.bmPos = .scan → bs ≠ [] →
    (∀ b ∈ bs, cwb s.cfg.nibbleBitOrder (upperNibble b) ≠ s.cfg.marker ∧
      cwb s.cfg.nibbleBitOrder (lowerNibble b) ≠ s.cfg.marker) →
    feed (bmEncOp s.cfg bs).tail s = .next { s with bmPos := .cw, bmCw := s.cfg.marker }

/-! ### The frame codec -/

/-- 43_frame_serializer.md R140: the layout of a serialized frame. -/
def Obligations.SerializeLayout : Prop :=
  ∀ (s : State) (f : Frame), f.payload.length ≤ 255 →
    ∃ w : List Byte,
      exec (.serialize f) s = .next { s with results := s.results ++ [.bytes w] } ∧
      w.length = 6 + f.payload.length ∧
      w[0]? = some s.cfg.start ∧ w[1]? = some (f.receiver.setWidth 8) ∧ w[2]? = some (f.sender.setWidth 8) ∧
      w[3]? = some (match f.type with
        | .data => (0x01 : Byte) | .link => 0x02 | .unlink => 0x03 | .ack => 0x04 | .retryRequest => 0x05) ∧
      (∃ len : Byte, w[4]? = some len ∧ len.toNat = f.payload.length) ∧
      (w.drop 5).take f.payload.length = f.payload ∧ w[5 + f.payload.length]? = some s.cfg.stop

/-- 44_frame_deserializer.md R150: the three tests in order, and the frame returned. -/
def Obligations.DeserializeTestsInOrder : Prop :=
  ∀ (s : State) (buf : List Byte),
    ∃ r : Deserialized,
      exec (.deserialize buf) s = .next { s with results := s.results ++ [.deserialized r] } ∧
      (buf.length < 6 → r = .fail .frameTooShort) ∧
      (6 ≤ buf.length → (buf[0]? ≠ some s.cfg.start ∨ buf[buf.length - 1]? ≠ some s.cfg.stop) →
        r = .fail .invalidDelimiters) ∧
      (∀ len : Byte, 6 ≤ buf.length → buf[0]? = some s.cfg.start → buf[buf.length - 1]? = some s.cfg.stop →
        buf[4]? = some len →
        (buf.length ≠ len.toNat + 6 → r = .fail .lengthMismatch) ∧
        (buf.length = len.toNat + 6 → ∃ f : RxFrame, r = .ok f ∧ buf[1]? = some f.receiver8 ∧
          buf[2]? = some f.sender8 ∧ buf[3]? = some f.type8 ∧ f.payload = (buf.drop 5).take len.toNat ∧
          f.payload.length = len.toNat))

/-- 43_frame_serializer.md R142 (a) to (c): DESERIALIZE inverts SERIALIZE on valid Frames, whatever START and STOP are;
the length; and SERIALIZE is injective. -/
def Obligations.DeserializeInvertsSerialize : Prop :=
  ∀ (cfg : Config) (f : Frame), f.valid = true →
    deserializeOp cfg (serializeOp cfg f) = .ok f.toRx ∧
    f.toRx.toFrame? = some f ∧
    (serializeOp cfg f).length = 6 + f.payload.length ∧
    ∀ g : Frame, g.valid = true → serializeOp cfg f = serializeOp cfg g → f = g

/-- 43_frame_serializer.md R141 with 20_memory.md R58: Emit appends all `6 * (6 + LENGTH)` wire bytes of the frame as one
`Tx`, and changes nothing else. -/
def Obligations.EmitIsOneContiguousTx : Prop :=
  ∀ (s : State) (f : Frame),
    exec (.emit f) s = .next { s with out := s.out ++ [.tx (bmEncOp s.cfg (serializeOp s.cfg f))] } ∧
    (bmEncOp s.cfg (serializeOp s.cfg f)).length = 6 * (6 + f.payload.length)

/-! ### The assembly driver, ACCEPT, ROUTE -/

/-- 44_frame_deserializer.md R151: the pushed byte is appended to the bytes buffered; below five bytes, or below
LENGTH + 6, nothing else happens; else the buffer is cleared, its bytes are deserialized, and the frame goes to ACCEPT and
ROUTE or the failure to FrameErr. Only the byte at `fa_count` is written. -/
def Obligations.FaPushBuffersOrJudges : Prop :=
  ∀ (s : State) (d : Byte) (bs : List Byte), s.buffered = some bs → bs.length ≤ 260 →
    ∃ buf : List Host.Cell,
      (∀ k, k ≠ bs.length → bufRead buf k = bufRead s.faBuf k) ∧ memRead buf 0 (bs.length + 1) = some (bs ++ [d]) ∧
      ((bs.length + 1 < 5 ∨ ∃ len : Byte, (bs ++ [d])[4]? = some len ∧ bs.length + 1 < len.toNat + 6) →
        exec (.faPush d) s = .next { s with faBuf := buf, faCount := BitVec.ofNat 9 (bs.length + 1) }) ∧
      (∀ len : Byte, 5 ≤ bs.length + 1 → (bs ++ [d])[4]? = some len → len.toNat + 6 ≤ bs.length + 1 →
        exec (.faPush d) s =
          match deserializeOp s.cfg (bs ++ [d]) with
          | .ok f =>
            if acceptOp s f then exec (.route f) { s with faBuf := buf, faCount := 0 }
            else .next { s with faBuf := buf, faCount := 0 }
          | .fail e => .next { s with faBuf := buf, faCount := 0, out := s.out ++ [.frameErr e] })

/-- 44_frame_deserializer.md R154 (b), (c): from a buffer with the invariants of 10_state.md R29, FA_PUSH answers, keeps
those invariants, and reports no frame failure but InvalidDelimiters. -/
def Obligations.FaPushReportsOnlyInvalidDelimiters : Prop :=
  ∀ (s : State) (d : Byte), BufferOk s →
    ∃ t, exec (.faPush d) s = .next t ∧ BufferOk t ∧
      ∀ e, .frameErr e ∈ t.out → .frameErr e ∈ s.out ∨ e = .invalidDelimiters

/-- 43_frame_serializer.md R142 (d): a deframer in SCAN with no pending nibble and an empty frame buffer, fed
BM_ENC(SERIALIZE(f)) with at most one flipped bit in each codeword byte, hands exactly `f` to ACCEPT on the last wire
byte; before it nothing but the deframer and the buffer has changed. -/
def Obligations.FrameArrivesAtAcceptUnchanged : Prop :=
  ∀ (s : State) (f : Frame) (es : List (Option (Fin 8) × Option (Fin 8))), f.valid = true → s.bmPos = .scan →
    s.bmHaveUpper = false → s.faCount = 0 →
    (∃ t, t = { s with bmCw := t.bmCw, bmUpper := t.bmUpper, faBuf := t.faBuf } ∧
      feed (noisyWire s.cfg (serializeOp s.cfg f) es) s =
        if acceptOp s f.toRx then exec (.route f.toRx) t else .next t) ∧
    (∃ u, feed ((noisyWire s.cfg (serializeOp s.cfg f) es).dropLast) s = .next u ∧
      u = { s with bmPos := u.bmPos, bmCw := u.bmCw, bmHaveUpper := u.bmHaveUpper, bmUpper := u.bmUpper,
                   faBuf := u.faBuf, faCount := u.faCount })

/-- 44_frame_deserializer.md R152: ACCEPT compares all 8 bits with the local and the broadcast address; a RECEIVER byte of
0x80 or more is never accepted. -/
def Obligations.AcceptComparesReceiver : Prop :=
  ∀ (s : State) (f : RxFrame),
    ∃ b : Bool,
      exec (.accept f) s = .next { s with results := s.results ++ [.accepted b] } ∧
      (b = true ↔ f.receiver8 = s.localAddr.setWidth 8 ∨ f.receiver8 = 0x7F) ∧
      (0x80 ≤ f.receiver8.toNat → b = false)

/-- 45_connection_fsm.md R170: `find(r)` is the slot in use for `r`, the only one under I-1 of 10_state.md R29; `free()` is
the least DISCONNECTED slot; `cstate(r)` is that slot's state, or DISCONNECTED. -/
def Obligations.FindAndFreeNameTheSlots : Prop :=
  ∀ (s : State) (r : Addr),
    (OneSlotPerPeer s.conn → ∀ i, s.find r = some i ↔
      ∃ c, s.conn[i]? = some c ∧ c.state ≠ .disconnected ∧ c.remote = r) ∧
    (∀ j, s.free = some j ↔ (∃ c, s.conn[j]? = some c ∧ c.state = .disconnected) ∧
      ∀ k c, k < j → s.conn[k]? = some c → c.state ≠ .disconnected) ∧
    (∀ i c, s.find r = some i → s.conn[i]? = some c → s.cstate r = c.state) ∧
    (s.find r = none → s.cstate r = .disconnected)

/-- 44_frame_deserializer.md R153: a sender that is no address, a broadcast frame, a frame of an unknown peer that is no
LINK, and a LINK with no free slot are dropped; a frame of a known peer goes to its slot; a LINK of an unknown peer claims
the least free slot. -/
def Obligations.RouteDropsOrHandsOver : Prop :=
  ∀ (s : State) (f : RxFrame),
    (0x80 ≤ f.sender8.toNat → exec (.route f) s = .next s) ∧
    (f.receiver8 ≠ s.localAddr.setWidth 8 → exec (.route f) s = .next s) ∧
    (f.sender8.toNat < 0x80 → f.receiver8 = s.localAddr.setWidth 8 →
      (∀ i, s.find (f.sender8.setWidth 7) = some i → exec (.route f) s = exec (.connRx i f) s) ∧
      (s.find (f.sender8.setWidth 7) = none → f.type8 ≠ 0x02 → exec (.route f) s = .next s) ∧
      (s.find (f.sender8.setWidth 7) = none → f.type8 = 0x02 → s.free = none → exec (.route f) s = .next s) ∧
      (∀ j c, s.find (f.sender8.setWidth 7) = none → f.type8 = 0x02 → s.free = some j → s.conn[j]? = some c →
        exec (.route f) s =
          exec (.connRx j f) { s with conn := s.conn.set j { c with remote := f.sender8.setWidth 7 } }))

/-- 45_connection_fsm.md R182, inbound rows, through ROUTE: a frame addressed to this node from a peer that has a slot acts
on that slot as its cell says; a LINK of an unknown peer opens the least free slot (S2). -/
def Obligations.RouteFollowsInboundMatrix : Prop :=
  ∀ (s : State) (f : RxFrame), f.sender8.toNat < 0x80 → f.receiver8 = s.localAddr.setWidth 8 →
    (∀ i c, s.find (f.sender8.setWidth 7) = some i → s.conn[i]? = some c →
      exec (.route f) s =
        .next { s with conn := s.conn.set i (inboundCell s i c f).1, out := s.out ++ (inboundCell s i c f).2 }) ∧
    (∀ j, s.find (f.sender8.setWidth 7) = none → s.free = some j → f.type8 = 0x02 →
      exec (.route f) s =
        .next { s with
          conn := s.conn.set j
            { state := .connected, remote := f.sender8.setWidth 7, lastActivity := s.now, retryCount := 0 },
          out := s.out ++ [.tx (ctlWire s .ack (f.sender8.setWidth 7)),
            .notify j (f.sender8.setWidth 7) .disconnected .connected] })

/-! ### The connection machine: inbound frames -/

/-- 45_connection_fsm.md R171: a considered frame runs the handler its TYPE selects; any other frame is ignored. -/
def Obligations.ConnRxRunsTheHandlerOfTheType : Prop :=
  ∀ (s : State) (i : Nat) (c : Slot) (f : RxFrame), s.conn[i]? = some c →
    (f.sender8 = c.remote.setWidth 8 → f.receiver8 = s.localAddr.setWidth 8 →
      (f.type8 = 0x01 → exec (.connRx i f) s = exec (.rxData i f) s) ∧
      (f.type8 = 0x02 → exec (.connRx i f) s = exec (.rxLink i f) s) ∧
      (f.type8 = 0x03 → exec (.connRx i f) s = exec (.rxUnlink i f) s) ∧
      (f.type8 = 0x04 → exec (.connRx i f) s = exec (.rxAck i f) s) ∧
      (f.type8 = 0x05 → exec (.connRx i f) s = exec (.rxRetryRequest i f) s) ∧
      (f.type8.toNat = 0 ∨ 6 ≤ f.type8.toNat → exec (.connRx i f) s = exec (.rxReserved i f) s)) ∧
    (f.sender8 ≠ c.remote.setWidth 8 ∨ f.receiver8 ≠ s.localAddr.setWidth 8 → exec (.connRx i f) s = .next s)

/-- 45_connection_fsm.md R182, inbound rows: a considered frame acts on the slot as its cell says. -/
def Obligations.ConnRxFollowsInboundMatrix : Prop :=
  ∀ (s : State) (i : Nat) (c : Slot) (f : RxFrame), s.conn[i]? = some c → f.sender8 = c.remote.setWidth 8 →
    f.receiver8 = s.localAddr.setWidth 8 →
    exec (.connRx i f) s =
      .next { s with conn := s.conn.set i (inboundCell s i c f).1, out := s.out ++ (inboundCell s i c f).2 }

/-- 45_connection_fsm.md R176. -/
def Obligations.RxLinkOpensADisconnectedSlot : Prop :=
  ∀ (s : State) (i : Nat) (c : Slot) (f : RxFrame), s.conn[i]? = some c →
    (c.state = .disconnected →
      exec (.rxLink i f) s =
        .next { s with
          conn := s.conn.set i { c with state := .connected, lastActivity := s.now, retryCount := 0 },
          out := s.out ++ [.tx (ctlWire s .ack c.remote), .notify i c.remote .disconnected .connected] }) ∧
    (c.state ≠ .disconnected → exec (.rxLink i f) s = .next s)

/-- 45_connection_fsm.md R177. -/
def Obligations.RxAckCompletesAHandshake : Prop :=
  ∀ (s : State) (i : Nat) (c : Slot) (f : RxFrame), s.conn[i]? = some c →
    (c.state = .connecting →
      exec (.rxAck i f) s =
        .next { s with
          conn := s.conn.set i
            { c with state := .connected, remote := f.sender8.setWidth 7, lastActivity := s.now },
          out := s.out ++ [.notify i (f.sender8.setWidth 7) .connecting .connected] }) ∧
    (c.state = .disconnecting →
      exec (.rxAck i f) s =
        .next { s with
          conn := s.conn.set i { c with state := .disconnected },
          out := s.out ++ [.notify i c.remote .disconnecting .disconnected] }) ∧
    (c.state = .connected ∨ c.state = .disconnected → exec (.rxAck i f) s = .next s)

/-- 45_connection_fsm.md R178. -/
def Obligations.RxUnlinkClosesAConnectedSlot : Prop :=
  ∀ (s : State) (i : Nat) (c : Slot) (f : RxFrame), s.conn[i]? = some c →
    (c.state = .connected →
      exec (.rxUnlink i f) s =
        .next { s with
          conn := s.conn.set i { c with state := .disconnected },
          out := s.out ++ [.tx (ctlWire s .ack c.remote), .notify i c.remote .connected .disconnected] }) ∧
    (c.state ≠ .connected → exec (.rxUnlink i f) s = .next s)

/-- 45_connection_fsm.md R179: the payload is delivered, then acknowledged when `ACK_ON_DATA`. -/
def Obligations.RxDataDeliversInConnected : Prop :=
  ∀ (s : State) (i : Nat) (c : Slot) (f : RxFrame), s.conn[i]? = some c →
    (c.state = .connected → s.cfg.ackOnData = true →
      exec (.rxData i f) s =
        .next { s with
          conn := s.conn.set i { c with lastActivity := s.now },
          out := s.out ++ [.deliver c.remote f.payload, .tx (ctlWire s .ack c.remote)] }) ∧
    (c.state = .connected → s.cfg.ackOnData = false →
      exec (.rxData i f) s =
        .next { s with
          conn := s.conn.set i { c with lastActivity := s.now },
          out := s.out ++ [.deliver c.remote f.payload] }) ∧
    (c.state ≠ .connected → exec (.rxData i f) s = .next s)

/-- 45_connection_fsm.md R180, R181: in every state nothing. -/
def Obligations.RetryRequestAndReservedTypesAreIgnored : Prop :=
  ∀ (s : State) (i : Nat) (f : RxFrame), i < s.conn.length →
    exec (.rxRetryRequest i f) s = .next s ∧ exec (.rxReserved i f) s = .next s

/-! ### The connection machine: host commands -/

/-- 45_connection_fsm.md R172: S1, or one of three failures that change nothing but the Status. -/
def Obligations.CmdConnectOpensTheLeastFreeSlot : Prop :=
  ∀ (s : State) (r : Addr),
    (∀ i c, s.find r = some i → s.conn[i]? = some c →
      (c.state = .connected →
        exec (.cmdConnect r) s = .next { s with out := s.out ++ [.status (.failed .alreadyConnected)] }) ∧
      (c.state ≠ .connected →
        exec (.cmdConnect r) s = .next { s with out := s.out ++ [.status (.failed .alreadyPending)] })) ∧
    (s.find r = none → s.free = none →
      exec (.cmdConnect r) s = .next { s with out := s.out ++ [.status (.failed .noFreeSlot)] }) ∧
    (∀ j, s.find r = none → s.free = some j →
      exec (.cmdConnect r) s =
        .next { s with
          conn := s.conn.set j { state := .connecting, remote := r, lastActivity := s.now, retryCount := 0 },
          out := s.out ++ [.tx (ctlWire s .link r), .notify j r .disconnected .connecting, .status .ok] })

/-- 45_connection_fsm.md R173: S6, or NotConnected in the three other states. -/
def Obligations.CmdDisconnectStartsTheTeardown : Prop :=
  ∀ (s : State) (r : Addr),
    (s.cstate r ≠ .connected →
      exec (.cmdDisconnect r) s = .next { s with out := s.out ++ [.status (.failed .notConnected)] }) ∧
    (∀ i c, s.find r = some i → s.conn[i]? = some c → c.state = .connected →
      exec (.cmdDisconnect r) s =
        .next { s with
          conn := s.conn.set i { c with state := .disconnecting, lastActivity := s.now, retryCount := 0 },
          out := s.out ++ [.tx (ctlWire s .unlink r), .notify i r .connected .disconnecting, .status .ok] })

/-- 45_connection_fsm.md R174: one DATA frame and recorded activity, or NotConnected in the three other states. -/
def Obligations.CmdSendEmitsOneDataFrame : Prop :=
  ∀ (s : State) (r : Addr) (payload : List Byte), payload.length ≤ 255 →
    (s.cstate r ≠ .connected →
      exec (.cmdSend r payload) s = .next { s with out := s.out ++ [.status (.failed .notConnected)] }) ∧
    (∀ i c, s.find r = some i → s.conn[i]? = some c → c.state = .connected →
      exec (.cmdSend r payload) s =
        .next { s with
          conn := s.conn.set i { c with lastActivity := s.now },
          out := s.out ++
            [.tx (bmEncOp s.cfg (serializeOp s.cfg
              { receiver := r, sender := s.localAddr, type := .data, payload := payload })), .status .ok] })

/-- 45_connection_fsm.md R175: the connection goes to DISCONNECTED from any state, nothing is emitted, the Status is OK. -/
def Obligations.CmdAbortForcesDisconnected : Prop :=
  ∀ (s : State) (r : Addr),
    (s.find r = none → exec (.cmdAbort r) s = .next { s with out := s.out ++ [.status .ok] }) ∧
    (∀ i c, s.find r = some i → s.conn[i]? = some c →
      exec (.cmdAbort r) s =
        .next { s with
          conn := s.conn.set i { c with state := .disconnected },
          out := s.out ++ [.notify i r c.state .disconnected, .status .ok] })

/-- 60_exceptions.md R232: a host command that fails changes nothing but the Status it reports, and every command answers. -/
def Obligations.RejectedCommandChangesNothing : Prop :=
  ∀ (s : State) (r : Addr) (payload : List Byte) (op : Instr),
    op = .cmdConnect r ∨ op = .cmdDisconnect r ∨ op = .cmdSend r payload ∨ op = .cmdAbort r →
    ∃ t st, exec op s = .next t ∧ t.out.getLast? = some (.status st) ∧
      ∀ e, st = .failed e → t = { s with out := s.out ++ [.status (.failed e)] }

/-! ### The connection machine: the timer -/

/-- 45_connection_fsm.md R183, R182: TICK acts on every slot as its cell says, slot 0 first, the outputs in slot order. -/
def Obligations.TickActsOnEverySlotInOrder : Prop :=
  ∀ s : State,
    exec .tick s =
      .next { s with
        conn := s.conn.zipIdx.map (fun p => (tickCell s p.2 p.1).1),
        out := s.out ++ s.conn.zipIdx.flatMap (fun p => (tickCell s p.2 p.1).2) }

/-- 45_connection_fsm.md R183: a second TICK with the same `now` does nothing, under the constraints of 00_scope.md R7. -/
def Obligations.TickIsIdempotent : Prop :=
  ∀ s t : State, s.cfg.valid = true → exec .tick s = .next t → exec .tick t = .next t

/-- 45_connection_fsm.md R184: the pending frame again, the count one higher, activity recorded, no Notify. -/
def Obligations.RetryReemitsThePendingFrame : Prop :=
  ∀ (s : State) (i : Nat) (c : Slot), s.conn[i]? = some c → c.retryCount.toNat < s.cfg.maxRetries →
    (c.state = .connecting →
      exec (.retry i) s =
        .next { s with
          conn := s.conn.set i { c with retryCount := c.retryCount + 1, lastActivity := s.now },
          out := s.out ++ [.tx (ctlWire s .link c.remote)] }) ∧
    (c.state = .disconnecting →
      exec (.retry i) s =
        .next { s with
          conn := s.conn.set i { c with retryCount := c.retryCount + 1, lastActivity := s.now },
          out := s.out ++ [.tx (ctlWire s .unlink c.remote)] })

/-- 45_connection_fsm.md R185, R186: GIVE_UP and IDLE_DROP set the slot DISCONNECTED and notify a change, and emit
nothing. -/
def Obligations.GiveUpAndIdleDropOnlyDisconnect : Prop :=
  ∀ (s : State) (i : Nat) (c : Slot), s.conn[i]? = some c →
    (c.state ≠ .disconnected →
      exec (.giveUp i) s =
        .next { s with
          conn := s.conn.set i { c with state := .disconnected },
          out := s.out ++ [.notify i c.remote c.state .disconnected] } ∧
      exec (.idleDrop i) s =
        .next { s with
          conn := s.conn.set i { c with state := .disconnected },
          out := s.out ++ [.notify i c.remote c.state .disconnected] }) ∧
    (c.state = .disconnected → exec (.giveUp i) s = .next s ∧ exec (.idleDrop i) s = .next s)

/-- 45_connection_fsm.md R188: a pending frame first emitted at real time `t0` with no answer is emitted again, once, at each
of the first `MAX_RETRIES` due ticks, and the connection is given up at the next one, where nothing is emitted for it. -/
def Obligations.RetryBudgetIsSpentOneDueTickAtATime : Prop :=
  ∀ (s : State) (k t0 : Nat) (c : Slot) (ts : List Nat), s.cfg.maxRetries ≤ 255 → s.conn[k]? = some c →
    c.state = .connecting ∨ c.state = .disconnecting → c.retryCount = 0 → c.lastActivity = t0 % 2 ^ s.cfg.tsW →
    RetryTimes s.cfg t0 ts →
    (∃ t, tickRun ts s = .next t ∧
      (ts.length ≤ s.cfg.maxRetries →
        t.conn[k]? = some { c with
          retryCount := BitVec.ofNat 8 ts.length, lastActivity := (ts.getLastD t0) % 2 ^ s.cfg.tsW }) ∧
      (ts.length = s.cfg.maxRetries + 1 → t.conn[k]? = some { c with
          state := .disconnected, retryCount := BitVec.ofNat 8 s.cfg.maxRetries,
          lastActivity := (ts.dropLast.getLastD t0) % 2 ^ s.cfg.tsW })) ∧
    (∀ (before after : List Nat) (t : Nat), ts = before ++ t :: after → before.length ≤ s.cfg.maxRetries →
      ∃ u v, tickRun before s = .next u ∧ tickAt t u = .next v ∧
        TickOutputsAt { u with time := t } v k
          (if before.length < s.cfg.maxRetries then [.tx (pendingWire s c)]
           else [.notify k c.remote c.state .disconnected]))

/-- 45_connection_fsm.md R189 (g): with no inbound frames and no commands, `MAX_RETRIES + 1` ticks at which every slot in
use is due bring every slot to DISCONNECTED. -/
def Obligations.DueTicksBringEverySlotDown : Prop :=
  ∀ (s : State) (ts : List Nat), Inv s → ts.length = s.cfg.maxRetries + 1 → DueRun ts s →
    ∃ t, tickRun ts s = .next t ∧ ∀ c ∈ t.conn, c.state = .disconnected

/-- 00_scope.md R16: `elapsed` is the real elapsed tick count modulo `2^TS_W`, and equal to it when fewer than `2^TS_W`
ticks have passed. -/
def Obligations.ElapsedIsRealTime : Prop :=
  ∀ w t0 t : Nat, t0 ≤ t →
    elapsed w (t % 2 ^ w) (t0 % 2 ^ w) = (t - t0) % 2 ^ w ∧
    (t - t0 < 2 ^ w → elapsed w (t % 2 ^ w) (t0 % 2 ^ w) = t - t0)

/-! ### What the connection machine preserves -/

/-- 45_connection_fsm.md R182: whatever an agent's event does to a slot is a row of the matrix, S1 to S12, SEND or ABORT, by
the event of that row; an inbound row needs a received byte that completes a frame of the row's TYPE from the slot's peer,
addressed to this node. In particular (R187, R189 (b)) activity is recorded by no other event, and a slot leaves
DISCONNECTED only by CMD_CONNECT or by an inbound LINK from a peer that has no slot. -/
def Obligations.EverySlotChangeIsARowOfTheMatrix : Prop :=
  ∀ (s t : State) (op : Instr) (k : Nat) (c : Slot), op.agentEvent = true → exec op s = .next t →
    s.conn[k]? = some c → ∃ d, t.conn[k]? = some d ∧ (d = c ∨ IsRow s op c d)

/-- 10_state.md R30, R38: one Notify for each state transition and none when the state does not change, so that a host that
watches Notify holds the state of every slot after every event. -/
def Obligations.NotifyMirrorsEveryTransition : Prop :=
  ∀ (s t : State) (op : Instr), op.agentEvent = true → exec op s = .next t →
    ∃ os, t.out = s.out ++ os ∧ mirror os (s.conn.map (·.state)) = some (t.conn.map (·.state))

/-- 45_connection_fsm.md R189 (c), (d): every frame an event emits has `sender = LOCAL_ADDR` and as receiver the address of
a slot in use before or after the event; it is no RETRY-REQUEST, DATA only for CMD_SEND, ACK only in reply to a LINK, an
UNLINK or, with `ACK_ON_DATA`, a DATA frame from that address, LINK only for CMD_CONNECT or TICK, UNLINK only for
CMD_DISCONNECT or TICK. -/
def Obligations.EmittedFramesComeFromThisNode : Prop :=
  ∀ (s t : State) (op : Instr), op.agentEvent = true → exec op s = .next t →
    ∃ os, t.out = s.out ++ os ∧
      ∀ w, .tx w ∈ os → ∃ f : Frame, w = bmEncOp s.cfg (serializeOp s.cfg f) ∧ f.sender = s.localAddr ∧
        (∃ c, (c ∈ s.conn ∨ c ∈ t.conn) ∧ c.state ≠ .disconnected ∧ c.remote = f.receiver) ∧ f.type ≠ .retryRequest ∧
        (f.type = .data → ∃ p, op = .cmdSend f.receiver p ∧ f.payload = p) ∧
        (f.type = .ack → InboundFrom s op f.receiver 0x02 ∨ InboundFrom s op f.receiver 0x03 ∨
          (s.cfg.ackOnData = true ∧ InboundFrom s op f.receiver 0x01)) ∧
        (f.type = .link → op = .cmdConnect f.receiver ∨ op = .tick) ∧
        (f.type = .unlink → op = .cmdDisconnect f.receiver ∨ op = .tick)

/-- 45_connection_fsm.md R189 (e): a payload is delivered only by a received byte, and only from a CONNECTED slot's peer. -/
def Obligations.DeliverOnlyInConnected : Prop :=
  ∀ (s t : State) (op : Instr), op.agentEvent = true → exec op s = .next t →
    ∃ os, t.out = s.out ++ os ∧
      ∀ a p, .deliver a p ∈ os → (∃ b, op = .bmRxByte b) ∧ ∃ c ∈ s.conn, c.state = .connected ∧ c.remote = a

/-! ### Reset, invariants, the step -/

/-- 70_reset_and_hazards.md R260, 10_state.md R40: what reset leaves, at power-up and as an event, whatever the state
before; nothing is emitted and the output streams are empty. -/
def Obligations.ResetLeavesTheStatedValues : Prop :=
  (∀ (cfg : Config) (a : Addr),
    (State.resetWith cfg a).bmPos = .scan ∧ (State.resetWith cfg a).bmHaveUpper = false ∧
    (State.resetWith cfg a).faCount = 0 ∧ (State.resetWith cfg a).localAddr = a ∧
    (State.resetWith cfg a).out = [] ∧ (State.resetWith cfg a).conn.length = cfg.nConn ∧
    ∀ c ∈ (State.resetWith cfg a).conn, c.state = .disconnected) ∧
  (∀ (s : State) (e : Event) (rest : List Event) (a : Addr), s.configOk = true → s.inputs = e :: rest →
    s.time ≤ e.time → e.input = .rst a → a ≠ 0x7F →
    ∃ t, step s = .next t ∧ t.bmPos = .scan ∧ t.bmHaveUpper = false ∧ t.faCount = 0 ∧ t.localAddr = a ∧ t.out = [] ∧
      t.conn.length = s.cfg.nConn ∧ (∀ c ∈ t.conn, c.state = .disconnected) ∧ t.cfg = s.cfg ∧ t.inputs = rest)

/-- The invariants of 10_state.md R29 hold after reset, for every legal configuration and local address. (I-2 and the width
of the timestamps rest on the model's reset values of `retry_count` and `last_activity`, log 3.) -/
def Obligations.InvariantsHoldAfterReset : Prop :=
  ∀ (cfg : Config) (a : Addr), cfg.valid = true → a ≠ 0x7F → Inv (State.resetWith cfg a)

/-- 10_state.md R29: every step keeps the invariants I-1 to I-5. -/
def Obligations.EveryStepKeepsTheInvariants : Prop :=
  ∀ s t : State, Inv s → step s = .next t → Inv t

/-- 00_scope.md R15: the step function is total. From a state with the invariants no step faults, and every event that is
one of the agents' events at a time not before the last one is answered with a next state. -/
def Obligations.EveryEventIsAnswered : Prop :=
  ∀ s : State, Inv s →
    (∀ r, step s ≠ .fault r) ∧
    (∀ (e : Event) (rest : List Event) (p : Presented) (op : Instr), s.inputs = e :: rest → s.time ≤ e.time →
      e.input = .word p → decode s.cfg p = .instr op → ∃ t, step s = .next t)

/-- 10_state.md R23, R24: no step changes the configuration, and only reset changes `LOCAL_ADDR`. -/
def Obligations.ConfigurationAndAddressAreConstant : Prop :=
  ∀ s t : State, step s = .next t →
    t.cfg = s.cfg ∧
    (t.localAddr = s.localAddr ∨ ∃ e rest a, s.inputs = e :: rest ∧ e.input = .rst a ∧ t.localAddr = a)

/-- 10_state.md R40 ("no rule reads it before a rule writes it"), 93_implementation_defined.md U13 ("two states that differ
only there are equivalent"): states that differ only in elements that are not meaningful step alike on agents' events. -/
def Obligations.MeaninglessFieldsDoNotMatter : Prop :=
  ∀ s t : State, SameMeaning s t → s.agentEventsOnly = true → SameOutcome (step s) (step t)

/-- When the next event's word decodes to an operation, a step is that operation, in the state with the event taken and
its time the current one. -/
def Obligations.StepRunsTheDecodedOperation : Prop :=
  ∀ (s : State) (e : Event) (rest : List Event) (p : Presented) (op : Instr), s.configOk = true →
    s.inputs = e :: rest → s.time ≤ e.time → e.input = .word p → decode s.cfg p = .instr op →
    op.wellFormed s.cfg = true → step s = exec op { s with time := e.time, inputs := rest }

/-- What a step does when it runs no operation: it refuses a configuration or address 00_scope.md R7 excludes, an event
earlier than the last one (20_memory.md R62 (c)), and a word that is no operation; it passes over a port that presents no
event (30_encoding.md R86); with no event left it is idle (00_scope.md R14). -/
def Obligations.StepOutsideAnOperation : Prop :=
  ∀ s : State,
    (s.cfg.valid = false ∨ s.localAddr = 0x7F → step s = .refused .badConfiguration) ∧
    (s.configOk = true → s.inputs = [] → step s = .next s) ∧
    (∀ (e : Event) (rest : List Event), s.configOk = true → s.inputs = e :: rest →
      (e.time < s.time → step s = .refused .timeWentBack) ∧
      (s.time ≤ e.time → e.input = .rst 0x7F → step s = .refused .badConfiguration) ∧
      (∀ p, s.time ≤ e.time → e.input = .word p →
        (decode s.cfg p = .noEvent → step s = .next { s with time := e.time, inputs := rest }) ∧
        (∀ x, decode s.cfg p = .reject x → step s = .refused (.rejected x))))

/-- The model's choices for operations outside what the spec lets happen (logs 4, 12, 14; 10_state.md R31, R40): FA_PUSH
faults at an index of 261 or more and on an unwritten LENGTH byte, an internal step faults on a slot the block has not, and
RETRY invoked by itself outside the condition 45_connection_fsm.md R184 states for it does nothing. -/
def Obligations.InternalStepsOutsideTheirDomain : Prop :=
  ∀ (s : State) (d : Byte) (i : Nat) (f : RxFrame),
    (261 ≤ s.faCount.toNat → exec (.faPush d) s = .fault (.noSuchBufferByte s.faCount.toNat)) ∧
    (5 ≤ s.faCount.toNat → s.faCount.toNat < 261 → bufRead s.faBuf 4 = none →
      exec (.faPush d) s = .fault (.unwrittenByte 4)) ∧
    (s.conn.length ≤ i →
      exec (.connRx i f) s = .fault (.noSuchSlot i) ∧ exec (.rxData i f) s = .fault (.noSuchSlot i) ∧
      exec (.rxLink i f) s = .fault (.noSuchSlot i) ∧ exec (.rxUnlink i f) s = .fault (.noSuchSlot i) ∧
      exec (.rxAck i f) s = .fault (.noSuchSlot i) ∧ exec (.rxRetryRequest i f) s = .fault (.noSuchSlot i) ∧
      exec (.rxReserved i f) s = .fault (.noSuchSlot i) ∧ exec (.retry i) s = .fault (.noSuchSlot i) ∧
      exec (.giveUp i) s = .fault (.noSuchSlot i) ∧ exec (.idleDrop i) s = .fault (.noSuchSlot i)) ∧
    (∀ c, s.conn[i]? = some c →
      ¬ ((c.state = .connecting ∨ c.state = .disconnecting) ∧ c.retryCount.toNat < s.cfg.maxRetries) →
      exec (.retry i) s = .next s)

/-! ### Encodings -/

/-- Decoding the encoding of a well-formed operation gives it back, for every operation, operand and configuration. -/
def Obligations.DecodeInvertsEncode : Prop :=
  ∀ (cfg : Config) (op : Instr), op.wellFormed cfg = true → decode cfg (encode cfg op) = .instr op

/-- Whatever bytes are presented, an operation the decoder reads is well formed. -/
def Obligations.DecodedOperationsAreWellFormed : Prop :=
  ∀ (cfg : Config) (p : Presented) (op : Instr), decode cfg p = .instr op → op.wellFormed cfg = true

/-- 30_encoding.md R84, R86: every word of the agents' ports. The refusal of `cmd_op` 0 is not R84's, which prints it as "none
(no event)": a word on port CMD stands for `cmd_valid == 1`, and 93_implementation_defined.md U9 says to refuse 0 with
`cmd_valid`, and 5, 6, 7 (log 18, DEDUCED). -/
def Obligations.PortWordsDecodeAsTheSpecPrints : Prop :=
  ∀ (cfg : Config) (slot : Nat) (b : Byte) (r : Addr) (payload : List Byte) (rest : List Byte),
    -- RXP: x1bbbbbbbb, 10xxxxxxxx, 00xxxxxxxx
    decode cfg ⟨.rxp, slot, [0x01, b]⟩ = .instr (.bmRxByte b) ∧
    decode cfg ⟨.rxp, slot, [0x03, b]⟩ = .instr (.bmRxByte b) ∧
    decode cfg ⟨.rxp, slot, [0x02, b]⟩ = .instr .bmRxTimeout ∧
    decode cfg ⟨.rxp, slot, [0x00, b]⟩ = .noEvent ∧
    -- CMD: 001rrrrrrr, 010rrrrrrr, 011rrrrrrr, 100rrrrrrr
    decode cfg ⟨.cmd, slot, [0x00, 0x80 + r.setWidth 8] ++ rest⟩ = .instr (.cmdConnect r) ∧
    decode cfg ⟨.cmd, slot, [0x01, r.setWidth 8] ++ rest⟩ = .instr (.cmdDisconnect r) ∧
    (payload.length ≤ 255 →
      decode cfg ⟨.cmd, slot, [0x01, 0x80 + r.setWidth 8, BitVec.ofNat 8 payload.length] ++ payload⟩ =
        .instr (.cmdSend r payload)) ∧
    decode cfg ⟨.cmd, slot, [0x02, r.setWidth 8] ++ rest⟩ = .instr (.cmdAbort r) ∧
    -- cmd_op 0, 5, 6, 7
    decode cfg ⟨.cmd, slot, [0x00, r.setWidth 8] ++ rest⟩ = .reject .reservedCommand ∧
    decode cfg ⟨.cmd, slot, [0x02, 0x80 + r.setWidth 8] ++ rest⟩ = .reject .reservedCommand ∧
    decode cfg ⟨.cmd, slot, [0x03, r.setWidth 8] ++ rest⟩ = .reject .reservedCommand ∧
    decode cfg ⟨.cmd, slot, [0x03, 0x80 + r.setWidth 8] ++ rest⟩ = .reject .reservedCommand ∧
    -- tick
    decode cfg ⟨.tick, slot, [1]⟩ = .instr .tick ∧ decode cfg ⟨.tick, slot, [0]⟩ = .noEvent

/-- A few words the spec prints under CFG_A: the codeword 0x55, BYTE2 of 0x68, the LINK and DATA frames of
43_frame_serializer.md R140. -/
def Obligations.PrintedWordsDecode : Prop :=
  decode Config.cfgA ⟨.henc, 0, [0x55]⟩ = .instr (.henc 0xB) ∧
  decode Config.cfgA ⟨.hdec, 0, [0x51]⟩ = .instr (.hdec 0x51) ∧
  decode Config.cfgA ⟨.bmEnc, 0, [0xFF, 0x33, 0xFF, 0xFF, 0x4B, 0xFF]⟩ = .instr (.bmEnc [0x68]) ∧
  decode Config.cfgA ⟨.serialize, 0, [0x02, 0x01, 0x10, 0x02, 0x00, 0x03]⟩ =
    .instr (.serialize { receiver := 0x01, sender := 0x10, type := .link, payload := [] }) ∧
  decode Config.cfgA ⟨.rxFrame, 0, [0x02, 0x01, 0x10, 0x01, 0x02, 0x68, 0x69, 0x03]⟩ =
    .instr (.rxData 0 { receiver8 := 0x01, sender8 := 0x10, type8 := 0x01, payload := [0x68, 0x69] })
end

