-- ==== Sys2Proof/Laws/Memory.lean ====
section
/-! SUPPORT. The frame buffer: a read after a write, the canonical form, and reading a range. -/

namespace Sys2Proof.Machine

/-- Reading the index just written gives the byte written. -/
@[simp] theorem bufRead_bufInsert_same (buf : List Host.Cell) (a : Nat) (b : Byte) :
    bufRead (bufInsert buf a b) a = some b := by
  induction buf with
  | nil => simp [bufInsert, bufRead]
  | cons e rest ih =>
    obtain ⟨k, c⟩ := e
    unfold bufInsert
    split
    · simp [bufRead]
    · split
      · simp [bufRead]
      · next h => simp [bufRead, h, ih]

/-- A write leaves every other index alone. -/
theorem bufRead_bufInsert_other (buf : List Host.Cell) {a k : Nat} (b : Byte) (h : k ≠ a) :
    bufRead (bufInsert buf a b) k = bufRead buf k := by
  induction buf with
  | nil => simp [bufInsert, bufRead, h]
  | cons e rest ih =>
    obtain ⟨m, c⟩ := e
    unfold bufInsert
    split
    · simp [bufRead, h]
    · split
      · next h1 => subst h1; simp [bufRead, h]
      · simp [bufRead, ih]

theorem bufSorted_bufInsert {buf : List Host.Cell} {lo a : Nat} (b : Byte) (hs : bufSorted lo buf = true)
    (hlo : lo ≤ a) (ha : a < frameMax) : bufSorted lo (bufInsert buf a b) = true := by
  induction buf generalizing lo with
  | nil => simp [bufInsert, bufSorted, hlo, ha]
  | cons e rest ih =>
    obtain ⟨k, c⟩ := e
    simp only [bufSorted, Bool.and_eq_true, decide_eq_true_eq] at hs
    obtain ⟨⟨h1, h2⟩, h3⟩ := hs
    unfold bufInsert
    split
    · simp only [bufSorted, Bool.and_eq_true, decide_eq_true_eq]
      exact ⟨⟨hlo, ha⟩, ⟨by omega, h2⟩, h3⟩
    · split
      · next h => subst h; simp [bufSorted, hlo, ha, h3]
      · simp only [bufSorted, Bool.and_eq_true, decide_eq_true_eq]
        exact ⟨⟨h1, h2⟩, ih h3 (by omega)⟩

/-- Every write keeps the canonical form. -/
theorem memWrite_wf {buf buf' : List Host.Cell} {a : Nat} {b : Byte} (hw : Memory.wf buf = true)
    (h : memWrite buf a b = some buf') : Memory.wf buf' = true := by
  unfold memWrite at h
  split at h
  · next ha =>
    cases h
    exact bufSorted_bufInsert b hw (Nat.zero_le _) ha
  · cases h

/-- The buffer has its canonical form after reset. -/
theorem reset_wf (cfg : Config) (a : Addr) : Memory.wf (State.resetWith cfg a).faBuf = true := rfl

/-- All a write can do: it is inside the buffer, reads back, and leaves every other index alone. -/
theorem memWrite_spec {buf buf' : List Host.Cell} {a : Nat} {b : Byte} (h : memWrite buf a b = some buf') :
    a < frameMax ∧ bufRead buf' a = some b ∧ ∀ k, k ≠ a → bufRead buf' k = bufRead buf k := by
  unfold memWrite at h
  split at h
  · next ha =>
    cases h
    exact ⟨ha, bufRead_bufInsert_same buf a b, fun k hk => bufRead_bufInsert_other buf b hk⟩
  · cases h

theorem memWrite_of_lt (buf : List Host.Cell) {a : Nat} (b : Byte) (h : a < frameMax) :
    memWrite buf a b = some (bufInsert buf a b) := by
  simp [memWrite, h]

theorem memWrite_of_ge (buf : List Host.Cell) {a : Nat} (b : Byte) (h : frameMax ≤ a) : memWrite buf a b = none := by
  simp [memWrite, Nat.not_lt.mpr h]

/-- Reading `n` bytes gives `n` bytes, each the one at its index; and it succeeds where all are written. -/
theorem memRead_eq_some_iff (buf : List Host.Cell) (a n : Nat) (bs : List Byte) :
    memRead buf a n = some bs ↔ bs.length = n ∧ ∀ k, k < n → bufRead buf (a + k) = bs[k]? := by
  induction n generalizing a bs with
  | zero => cases bs <;> simp [memRead]
  | succ n ih =>
    unfold memRead
    constructor
    · intro h
      split at h
      · cases h
      · next b hb =>
        split at h
        · cases h
        · next cs hcs =>
          cases h
          obtain ⟨h1, h2⟩ := (ih (a + 1) cs).1 hcs
          refine ⟨by simp [h1], fun k hk => ?_⟩
          cases k with
          | zero => simpa using hb
          | succ k =>
            have := h2 k (by omega)
            rw [show a + (k + 1) = a + 1 + k by omega, this]
            simp
    · rintro ⟨hl, h⟩
      cases bs with
      | nil => simp at hl
      | cons b cs =>
        have h0 := h 0 (by omega)
        simp only [Nat.add_zero, List.getElem?_cons_zero] at h0
        rw [h0]
        have hcs : memRead buf (a + 1) n = some cs := by
          refine (ih (a + 1) cs).2 ⟨by simpa using hl, fun k hk => ?_⟩
          have := h (k + 1) (by omega)
          rw [show a + 1 + k = a + (k + 1) by omega, this]
          simp
        simp [hcs]

/-- A range all of whose bytes are written can be read. -/
theorem memRead_isSome (buf : List Host.Cell) (a n : Nat) (h : ∀ k, k < n → (bufRead buf (a + k)).isSome) :
    ∃ bs, memRead buf a n = some bs := by
  induction n generalizing a with
  | zero => exact ⟨[], rfl⟩
  | succ n ih =>
    obtain ⟨b, hb⟩ := Option.isSome_iff_exists.1 (h 0 (by omega))
    obtain ⟨cs, hcs⟩ := ih (a + 1) (fun k hk => by
      have := h (k + 1) (by omega)
      rwa [show a + (k + 1) = a + 1 + k by omega] at this)
    refine ⟨b :: cs, ?_⟩
    rw [Nat.add_zero] at hb
    simp [memRead, hb, hcs]

/-- Buffers that agree on a range read the same there. -/
theorem memRead_congr {buf buf' : List Host.Cell} {a n : Nat}
    (h : ∀ k, k < n → bufRead buf (a + k) = bufRead buf' (a + k)) : memRead buf a n = memRead buf' a n := by
  induction n generalizing a with
  | zero => rfl
  | succ n ih =>
    have h0 := h 0 (by omega)
    rw [Nat.add_zero] at h0
    have hr : memRead buf (a + 1) n = memRead buf' (a + 1) n := ih (fun k hk => by
      have := h (k + 1) (by omega)
      rwa [show a + (k + 1) = a + 1 + k by omega] at this)
    simp only [memRead, h0, hr]

/-- Writing the byte after the ones buffered appends it to them. -/
theorem memRead_bufInsert_append {buf : List Host.Cell} {n : Nat} {bs : List Byte} (d : Byte)
    (h : memRead buf 0 n = some bs) : memRead (bufInsert buf n d) 0 (n + 1) = some (bs ++ [d]) := by
  rw [memRead_eq_some_iff] at h ⊢
  obtain ⟨hl, hk⟩ := h
  refine ⟨by simp [hl], fun k hlt => ?_⟩
  rw [Nat.zero_add]
  rcases Nat.lt_or_ge k n with hkn | hkn
  · rw [bufRead_bufInsert_other buf d (by omega)]
    have := hk k hkn
    rw [Nat.zero_add] at this
    rw [this, List.getElem?_append_left (by omega)]
  · obtain rfl : k = n := by omega
    simp [← hl]

/-- What is read after the byte was written behind the ones buffered is those and the byte. -/
theorem memRead_bufInsert_split {buf : List Host.Cell} {n : Nat} {d : Byte} {bytes : List Byte}
    (h : memRead (bufInsert buf n d) 0 (n + 1) = some bytes) : ∃ bs, memRead buf 0 n = some bs ∧ bytes = bs ++ [d] := by
  obtain ⟨hl, hk⟩ := (memRead_eq_some_iff _ _ _ _).1 h
  obtain ⟨bs, hbs⟩ := memRead_isSome buf 0 n (by
    intro k hkn
    have h1 := hk k (by omega)
    rw [bufRead_bufInsert_other buf d (by omega : 0 + k ≠ n)] at h1
    rw [h1, List.getElem?_eq_getElem (by omega)]
    rfl)
  refine ⟨bs, hbs, ?_⟩
  have := memRead_bufInsert_append d hbs
  rw [h] at this
  exact Option.some.inj this

end Sys2Proof.Machine
end

