-- ==== Sys2Proof/Laws/State.lean ====
section
/-! SUPPORT. One lemma for each field under each update of the state, true by rfl: later proofs cite these and never
unfold an update. `setConnState` is a match; its fields have one lemma each too. -/

namespace Sys2Proof.Machine

variable (s : State)

@[simp] theorem State.output_cfg (o : Output) : (s.output o).cfg = s.cfg := rfl
@[simp] theorem State.output_localAddr (o : Output) : (s.output o).localAddr = s.localAddr := rfl
@[simp] theorem State.output_bmPos (o : Output) : (s.output o).bmPos = s.bmPos := rfl
@[simp] theorem State.output_bmCw (o : Output) : (s.output o).bmCw = s.bmCw := rfl
@[simp] theorem State.output_bmHaveUpper (o : Output) : (s.output o).bmHaveUpper = s.bmHaveUpper := rfl
@[simp] theorem State.output_bmUpper (o : Output) : (s.output o).bmUpper = s.bmUpper := rfl
@[simp] theorem State.output_faBuf (o : Output) : (s.output o).faBuf = s.faBuf := rfl
@[simp] theorem State.output_faCount (o : Output) : (s.output o).faCount = s.faCount := rfl
@[simp] theorem State.output_conn (o : Output) : (s.output o).conn = s.conn := rfl
@[simp] theorem State.output_time (o : Output) : (s.output o).time = s.time := rfl
@[simp] theorem State.output_inputs (o : Output) : (s.output o).inputs = s.inputs := rfl
@[simp] theorem State.output_out (o : Output) : (s.output o).out = s.out ++ [o] := rfl
@[simp] theorem State.output_results (o : Output) : (s.output o).results = s.results := rfl
@[simp] theorem State.output_now (o : Output) : (s.output o).now = s.now := rfl
@[simp] theorem State.output_ctl (o : Output) (t : FrameType) (q : Addr) : (s.output o).ctl t q = s.ctl t q := rfl

@[simp] theorem State.ret_cfg (r : Result) : (s.ret r).cfg = s.cfg := rfl
@[simp] theorem State.ret_localAddr (r : Result) : (s.ret r).localAddr = s.localAddr := rfl
@[simp] theorem State.ret_bmPos (r : Result) : (s.ret r).bmPos = s.bmPos := rfl
@[simp] theorem State.ret_bmCw (r : Result) : (s.ret r).bmCw = s.bmCw := rfl
@[simp] theorem State.ret_bmHaveUpper (r : Result) : (s.ret r).bmHaveUpper = s.bmHaveUpper := rfl
@[simp] theorem State.ret_bmUpper (r : Result) : (s.ret r).bmUpper = s.bmUpper := rfl
@[simp] theorem State.ret_faBuf (r : Result) : (s.ret r).faBuf = s.faBuf := rfl
@[simp] theorem State.ret_faCount (r : Result) : (s.ret r).faCount = s.faCount := rfl
@[simp] theorem State.ret_conn (r : Result) : (s.ret r).conn = s.conn := rfl
@[simp] theorem State.ret_time (r : Result) : (s.ret r).time = s.time := rfl
@[simp] theorem State.ret_inputs (r : Result) : (s.ret r).inputs = s.inputs := rfl
@[simp] theorem State.ret_out (r : Result) : (s.ret r).out = s.out := rfl
@[simp] theorem State.ret_results (r : Result) : (s.ret r).results = s.results ++ [r] := rfl
@[simp] theorem State.ret_now (r : Result) : (s.ret r).now = s.now := rfl
@[simp] theorem State.ret_ctl (r : Result) (t : FrameType) (q : Addr) : (s.ret r).ctl t q = s.ctl t q := rfl

@[simp] theorem State.raise_cfg (f : Failure) : (s.raise f).cfg = s.cfg := rfl
@[simp] theorem State.raise_localAddr (f : Failure) : (s.raise f).localAddr = s.localAddr := rfl
@[simp] theorem State.raise_bmPos (f : Failure) : (s.raise f).bmPos = s.bmPos := rfl
@[simp] theorem State.raise_bmCw (f : Failure) : (s.raise f).bmCw = s.bmCw := rfl
@[simp] theorem State.raise_bmHaveUpper (f : Failure) : (s.raise f).bmHaveUpper = s.bmHaveUpper := rfl
@[simp] theorem State.raise_bmUpper (f : Failure) : (s.raise f).bmUpper = s.bmUpper := rfl
@[simp] theorem State.raise_faBuf (f : Failure) : (s.raise f).faBuf = s.faBuf := rfl
@[simp] theorem State.raise_faCount (f : Failure) : (s.raise f).faCount = s.faCount := rfl
@[simp] theorem State.raise_conn (f : Failure) : (s.raise f).conn = s.conn := rfl
@[simp] theorem State.raise_time (f : Failure) : (s.raise f).time = s.time := rfl
@[simp] theorem State.raise_inputs (f : Failure) : (s.raise f).inputs = s.inputs := rfl
@[simp] theorem State.raise_out (f : Failure) : (s.raise f).out = s.out ++ [f.report] := rfl
@[simp] theorem State.raise_results (f : Failure) : (s.raise f).results = s.results := rfl
@[simp] theorem State.raise_now (f : Failure) : (s.raise f).now = s.now := rfl
@[simp] theorem State.raise_ctl (f : Failure) (t : FrameType) (q : Addr) : (s.raise f).ctl t q = s.ctl t q := rfl

@[simp] theorem State.emitFrame_cfg (f : Frame) : (s.emitFrame f).cfg = s.cfg := rfl
@[simp] theorem State.emitFrame_localAddr (f : Frame) : (s.emitFrame f).localAddr = s.localAddr := rfl
@[simp] theorem State.emitFrame_bmPos (f : Frame) : (s.emitFrame f).bmPos = s.bmPos := rfl
@[simp] theorem State.emitFrame_bmCw (f : Frame) : (s.emitFrame f).bmCw = s.bmCw := rfl
@[simp] theorem State.emitFrame_bmHaveUpper (f : Frame) : (s.emitFrame f).bmHaveUpper = s.bmHaveUpper := rfl
@[simp] theorem State.emitFrame_bmUpper (f : Frame) : (s.emitFrame f).bmUpper = s.bmUpper := rfl
@[simp] theorem State.emitFrame_faBuf (f : Frame) : (s.emitFrame f).faBuf = s.faBuf := rfl
@[simp] theorem State.emitFrame_faCount (f : Frame) : (s.emitFrame f).faCount = s.faCount := rfl
@[simp] theorem State.emitFrame_conn (f : Frame) : (s.emitFrame f).conn = s.conn := rfl
@[simp] theorem State.emitFrame_time (f : Frame) : (s.emitFrame f).time = s.time := rfl
@[simp] theorem State.emitFrame_inputs (f : Frame) : (s.emitFrame f).inputs = s.inputs := rfl
@[simp] theorem State.emitFrame_out (f : Frame) : (s.emitFrame f).out = s.out ++ [.tx (wireOf s.cfg f)] := rfl
@[simp] theorem State.emitFrame_results (f : Frame) : (s.emitFrame f).results = s.results := rfl
@[simp] theorem State.emitFrame_now (f : Frame) : (s.emitFrame f).now = s.now := rfl
@[simp] theorem State.emitFrame_ctl (f : Frame) (t : FrameType) (q : Addr) : (s.emitFrame f).ctl t q = s.ctl t q := rfl

@[simp] theorem State.updSlot_cfg (i : Nat) (g : Slot → Slot) : (s.updSlot i g).cfg = s.cfg := rfl
@[simp] theorem State.updSlot_localAddr (i : Nat) (g : Slot → Slot) : (s.updSlot i g).localAddr = s.localAddr := rfl
@[simp] theorem State.updSlot_bmPos (i : Nat) (g : Slot → Slot) : (s.updSlot i g).bmPos = s.bmPos := rfl
@[simp] theorem State.updSlot_bmCw (i : Nat) (g : Slot → Slot) : (s.updSlot i g).bmCw = s.bmCw := rfl
@[simp] theorem State.updSlot_bmHaveUpper (i : Nat) (g : Slot → Slot) : (s.updSlot i g).bmHaveUpper = s.bmHaveUpper := rfl
@[simp] theorem State.updSlot_bmUpper (i : Nat) (g : Slot → Slot) : (s.updSlot i g).bmUpper = s.bmUpper := rfl
@[simp] theorem State.updSlot_faBuf (i : Nat) (g : Slot → Slot) : (s.updSlot i g).faBuf = s.faBuf := rfl
@[simp] theorem State.updSlot_faCount (i : Nat) (g : Slot → Slot) : (s.updSlot i g).faCount = s.faCount := rfl
@[simp] theorem State.updSlot_conn (i : Nat) (g : Slot → Slot) : (s.updSlot i g).conn = s.conn.modify i g := rfl
@[simp] theorem State.updSlot_time (i : Nat) (g : Slot → Slot) : (s.updSlot i g).time = s.time := rfl
@[simp] theorem State.updSlot_inputs (i : Nat) (g : Slot → Slot) : (s.updSlot i g).inputs = s.inputs := rfl
@[simp] theorem State.updSlot_out (i : Nat) (g : Slot → Slot) : (s.updSlot i g).out = s.out := rfl
@[simp] theorem State.updSlot_results (i : Nat) (g : Slot → Slot) : (s.updSlot i g).results = s.results := rfl
@[simp] theorem State.updSlot_now (i : Nat) (g : Slot → Slot) : (s.updSlot i g).now = s.now := rfl
@[simp] theorem State.updSlot_ctl (i : Nat) (g : Slot → Slot) (t : FrameType) (q : Addr) : (s.updSlot i g).ctl t q = s.ctl t q := rfl

@[simp] theorem State.setRemote_cfg (i : Nat) (r : Addr) : (s.setRemote i r).cfg = s.cfg := rfl
@[simp] theorem State.setRemote_localAddr (i : Nat) (r : Addr) : (s.setRemote i r).localAddr = s.localAddr := rfl
@[simp] theorem State.setRemote_bmPos (i : Nat) (r : Addr) : (s.setRemote i r).bmPos = s.bmPos := rfl
@[simp] theorem State.setRemote_bmCw (i : Nat) (r : Addr) : (s.setRemote i r).bmCw = s.bmCw := rfl
@[simp] theorem State.setRemote_bmHaveUpper (i : Nat) (r : Addr) : (s.setRemote i r).bmHaveUpper = s.bmHaveUpper := rfl
@[simp] theorem State.setRemote_bmUpper (i : Nat) (r : Addr) : (s.setRemote i r).bmUpper = s.bmUpper := rfl
@[simp] theorem State.setRemote_faBuf (i : Nat) (r : Addr) : (s.setRemote i r).faBuf = s.faBuf := rfl
@[simp] theorem State.setRemote_faCount (i : Nat) (r : Addr) : (s.setRemote i r).faCount = s.faCount := rfl
@[simp] theorem State.setRemote_conn (i : Nat) (r : Addr) : (s.setRemote i r).conn = s.conn.modify i (fun c => { c with remote := r }) := rfl
@[simp] theorem State.setRemote_time (i : Nat) (r : Addr) : (s.setRemote i r).time = s.time := rfl
@[simp] theorem State.setRemote_inputs (i : Nat) (r : Addr) : (s.setRemote i r).inputs = s.inputs := rfl
@[simp] theorem State.setRemote_out (i : Nat) (r : Addr) : (s.setRemote i r).out = s.out := rfl
@[simp] theorem State.setRemote_results (i : Nat) (r : Addr) : (s.setRemote i r).results = s.results := rfl
@[simp] theorem State.setRemote_now (i : Nat) (r : Addr) : (s.setRemote i r).now = s.now := rfl
@[simp] theorem State.setRemote_ctl (i : Nat) (r : Addr) (t : FrameType) (q : Addr) : (s.setRemote i r).ctl t q = s.ctl t q := rfl

@[simp] theorem State.setRetryCount_cfg (i : Nat) (n : BitVec 8) : (s.setRetryCount i n).cfg = s.cfg := rfl
@[simp] theorem State.setRetryCount_localAddr (i : Nat) (n : BitVec 8) : (s.setRetryCount i n).localAddr = s.localAddr := rfl
@[simp] theorem State.setRetryCount_bmPos (i : Nat) (n : BitVec 8) : (s.setRetryCount i n).bmPos = s.bmPos := rfl
@[simp] theorem State.setRetryCount_bmCw (i : Nat) (n : BitVec 8) : (s.setRetryCount i n).bmCw = s.bmCw := rfl
@[simp] theorem State.setRetryCount_bmHaveUpper (i : Nat) (n : BitVec 8) : (s.setRetryCount i n).bmHaveUpper = s.bmHaveUpper := rfl
@[simp] theorem State.setRetryCount_bmUpper (i : Nat) (n : BitVec 8) : (s.setRetryCount i n).bmUpper = s.bmUpper := rfl
@[simp] theorem State.setRetryCount_faBuf (i : Nat) (n : BitVec 8) : (s.setRetryCount i n).faBuf = s.faBuf := rfl
@[simp] theorem State.setRetryCount_faCount (i : Nat) (n : BitVec 8) : (s.setRetryCount i n).faCount = s.faCount := rfl
@[simp] theorem State.setRetryCount_conn (i : Nat) (n : BitVec 8) : (s.setRetryCount i n).conn = s.conn.modify i (fun c => { c with retryCount := n }) := rfl
@[simp] theorem State.setRetryCount_time (i : Nat) (n : BitVec 8) : (s.setRetryCount i n).time = s.time := rfl
@[simp] theorem State.setRetryCount_inputs (i : Nat) (n : BitVec 8) : (s.setRetryCount i n).inputs = s.inputs := rfl
@[simp] theorem State.setRetryCount_out (i : Nat) (n : BitVec 8) : (s.setRetryCount i n).out = s.out := rfl
@[simp] theorem State.setRetryCount_results (i : Nat) (n : BitVec 8) : (s.setRetryCount i n).results = s.results := rfl
@[simp] theorem State.setRetryCount_now (i : Nat) (n : BitVec 8) : (s.setRetryCount i n).now = s.now := rfl
@[simp] theorem State.setRetryCount_ctl (i : Nat) (n : BitVec 8) (t : FrameType) (q : Addr) : (s.setRetryCount i n).ctl t q = s.ctl t q := rfl

@[simp] theorem State.touch_cfg (i : Nat) : (s.touch i).cfg = s.cfg := rfl
@[simp] theorem State.touch_localAddr (i : Nat) : (s.touch i).localAddr = s.localAddr := rfl
@[simp] theorem State.touch_bmPos (i : Nat) : (s.touch i).bmPos = s.bmPos := rfl
@[simp] theorem State.touch_bmCw (i : Nat) : (s.touch i).bmCw = s.bmCw := rfl
@[simp] theorem State.touch_bmHaveUpper (i : Nat) : (s.touch i).bmHaveUpper = s.bmHaveUpper := rfl
@[simp] theorem State.touch_bmUpper (i : Nat) : (s.touch i).bmUpper = s.bmUpper := rfl
@[simp] theorem State.touch_faBuf (i : Nat) : (s.touch i).faBuf = s.faBuf := rfl
@[simp] theorem State.touch_faCount (i : Nat) : (s.touch i).faCount = s.faCount := rfl
@[simp] theorem State.touch_conn (i : Nat) : (s.touch i).conn = s.conn.modify i (fun c => { c with lastActivity := s.now }) := rfl
@[simp] theorem State.touch_time (i : Nat) : (s.touch i).time = s.time := rfl
@[simp] theorem State.touch_inputs (i : Nat) : (s.touch i).inputs = s.inputs := rfl
@[simp] theorem State.touch_out (i : Nat) : (s.touch i).out = s.out := rfl
@[simp] theorem State.touch_results (i : Nat) : (s.touch i).results = s.results := rfl
@[simp] theorem State.touch_now (i : Nat) : (s.touch i).now = s.now := rfl
@[simp] theorem State.touch_ctl (i : Nat) (t : FrameType) (q : Addr) : (s.touch i).ctl t q = s.ctl t q := rfl

@[simp] theorem State.taking_cfg (e : Event) (rest : List Event) : (s.taking e rest).cfg = s.cfg := rfl
@[simp] theorem State.taking_localAddr (e : Event) (rest : List Event) : (s.taking e rest).localAddr = s.localAddr := rfl
@[simp] theorem State.taking_bmPos (e : Event) (rest : List Event) : (s.taking e rest).bmPos = s.bmPos := rfl
@[simp] theorem State.taking_bmCw (e : Event) (rest : List Event) : (s.taking e rest).bmCw = s.bmCw := rfl
@[simp] theorem State.taking_bmHaveUpper (e : Event) (rest : List Event) : (s.taking e rest).bmHaveUpper = s.bmHaveUpper := rfl
@[simp] theorem State.taking_bmUpper (e : Event) (rest : List Event) : (s.taking e rest).bmUpper = s.bmUpper := rfl
@[simp] theorem State.taking_faBuf (e : Event) (rest : List Event) : (s.taking e rest).faBuf = s.faBuf := rfl
@[simp] theorem State.taking_faCount (e : Event) (rest : List Event) : (s.taking e rest).faCount = s.faCount := rfl
@[simp] theorem State.taking_conn (e : Event) (rest : List Event) : (s.taking e rest).conn = s.conn := rfl
@[simp] theorem State.taking_time (e : Event) (rest : List Event) : (s.taking e rest).time = e.time := rfl
@[simp] theorem State.taking_inputs (e : Event) (rest : List Event) : (s.taking e rest).inputs = rest := rfl
@[simp] theorem State.taking_out (e : Event) (rest : List Event) : (s.taking e rest).out = s.out := rfl
@[simp] theorem State.taking_results (e : Event) (rest : List Event) : (s.taking e rest).results = s.results := rfl

@[simp] theorem State.ctl_receiver (t : FrameType) (r : Addr) : (s.ctl t r).receiver = r := rfl
@[simp] theorem State.ctl_sender (t : FrameType) (r : Addr) : (s.ctl t r).sender = s.localAddr := rfl
@[simp] theorem State.ctl_type (t : FrameType) (r : Addr) : (s.ctl t r).type = t := rfl
@[simp] theorem State.ctl_payload (t : FrameType) (r : Addr) : (s.ctl t r).payload = [] := rfl

/-- SetState on a slot that is there: the slot's state, and one `Notify` when it changes. -/
theorem State.setConnState_of_slot {i : Nat} {c : Slot} (h : s.conn[i]? = some c) (new : ConnState) :
    s.setConnState i new =
      { s with conn := s.conn.modify i (fun d => { d with state := new }),
               out := s.out ++ (if c.state ≠ new then [.notify i c.remote c.state new] else []) } := by
  unfold State.setConnState
  rw [h]
  by_cases hc : c.state = new <;> simp [hc, State.updSlot, State.output]

/-- SetState where there is no slot: nothing. -/
theorem State.setConnState_of_none {i : Nat} (h : s.conn[i]? = none) (new : ConnState) :
    s.setConnState i new = s := by
  unfold State.setConnState
  rw [h]

/-- SetState writes the slots and the outputs only. -/
theorem State.setConnState_frame (i : Nat) (new : ConnState) :
    s.setConnState i new =
      { s with conn := (s.setConnState i new).conn, out := (s.setConnState i new).out } := by
  cases h : s.conn[i]? with
  | none => rw [State.setConnState_of_none s h]
  | some c => rw [State.setConnState_of_slot s h]

@[simp] theorem State.setConnState_cfg (i : Nat) (new : ConnState) : (s.setConnState i new).cfg = s.cfg := by
  rw [State.setConnState_frame]
@[simp] theorem State.setConnState_localAddr (i : Nat) (new : ConnState) : (s.setConnState i new).localAddr = s.localAddr := by
  rw [State.setConnState_frame]
@[simp] theorem State.setConnState_bmPos (i : Nat) (new : ConnState) : (s.setConnState i new).bmPos = s.bmPos := by
  rw [State.setConnState_frame]
@[simp] theorem State.setConnState_bmCw (i : Nat) (new : ConnState) : (s.setConnState i new).bmCw = s.bmCw := by
  rw [State.setConnState_frame]
@[simp] theorem State.setConnState_bmHaveUpper (i : Nat) (new : ConnState) : (s.setConnState i new).bmHaveUpper = s.bmHaveUpper := by
  rw [State.setConnState_frame]
@[simp] theorem State.setConnState_bmUpper (i : Nat) (new : ConnState) : (s.setConnState i new).bmUpper = s.bmUpper := by
  rw [State.setConnState_frame]
@[simp] theorem State.setConnState_faBuf (i : Nat) (new : ConnState) : (s.setConnState i new).faBuf = s.faBuf := by
  rw [State.setConnState_frame]
@[simp] theorem State.setConnState_faCount (i : Nat) (new : ConnState) : (s.setConnState i new).faCount = s.faCount := by
  rw [State.setConnState_frame]
@[simp] theorem State.setConnState_time (i : Nat) (new : ConnState) : (s.setConnState i new).time = s.time := by
  rw [State.setConnState_frame]
@[simp] theorem State.setConnState_inputs (i : Nat) (new : ConnState) : (s.setConnState i new).inputs = s.inputs := by
  rw [State.setConnState_frame]
@[simp] theorem State.setConnState_results (i : Nat) (new : ConnState) : (s.setConnState i new).results = s.results := by
  rw [State.setConnState_frame]
@[simp] theorem State.setConnState_now (i : Nat) (new : ConnState) : (s.setConnState i new).now = s.now := by
  rw [State.setConnState_frame]
  rfl

@[simp] theorem State.applyReset_cfg (a : Addr) : (s.applyReset a).cfg = s.cfg := rfl
@[simp] theorem State.applyReset_localAddr (a : Addr) : (s.applyReset a).localAddr = a := rfl
@[simp] theorem State.applyReset_bmPos (a : Addr) : (s.applyReset a).bmPos = .scan := rfl
@[simp] theorem State.applyReset_bmCw (a : Addr) : (s.applyReset a).bmCw = 0 := rfl
@[simp] theorem State.applyReset_bmHaveUpper (a : Addr) : (s.applyReset a).bmHaveUpper = false := rfl
@[simp] theorem State.applyReset_bmUpper (a : Addr) : (s.applyReset a).bmUpper = 0 := rfl
@[simp] theorem State.applyReset_faBuf (a : Addr) : (s.applyReset a).faBuf = [] := rfl
@[simp] theorem State.applyReset_faCount (a : Addr) : (s.applyReset a).faCount = 0 := rfl
@[simp] theorem State.applyReset_conn (a : Addr) : (s.applyReset a).conn = List.replicate s.cfg.nConn Slot.reset := rfl
@[simp] theorem State.applyReset_time (a : Addr) : (s.applyReset a).time = s.time := rfl
@[simp] theorem State.applyReset_inputs (a : Addr) : (s.applyReset a).inputs = s.inputs := rfl
@[simp] theorem State.applyReset_out (a : Addr) : (s.applyReset a).out = [] := rfl
@[simp] theorem State.applyReset_results (a : Addr) : (s.applyReset a).results = [] := rfl

end Sys2Proof.Machine
end

