-- ==== Sys2Proof/Laws/Ops.lean ====
section
/-! SUPPORT. What each shared operation can do, once: cite these, do not unfold the operations. -/

namespace Sys2Proof.Machine

/-! ### The slots -/

/-- `find(r)`: a slot in use for `r`, and none below it is. -/
theorem State.find_eq_some {s : State} {r : Addr} {i : Nat} (h : s.find r = some i) :
    ∃ c, s.conn[i]? = some c ∧ c.live = true ∧ c.remote = r := by
  unfold State.find at h
  rw [List.findIdx?_eq_some_iff_getElem] at h
  obtain ⟨hi, hp, -⟩ := h
  simp only [Bool.and_eq_true, decide_eq_true_eq] at hp
  exact ⟨s.conn[i], List.getElem?_eq_getElem hi, hp⟩

/-- No slot in use is for `r`. -/
theorem State.find_eq_none {s : State} {r : Addr} (h : s.find r = none) :
    ∀ c ∈ s.conn, c.live = true → c.remote ≠ r := by
  unfold State.find at h
  rw [List.findIdx?_eq_none_iff] at h
  intro c hc hl hr
  have := h c hc
  simp [hl, hr] at this

/-- `free()`: a slot that is DISCONNECTED. -/
theorem State.free_eq_some {s : State} {j : Nat} (h : s.free = some j) :
    ∃ c, s.conn[j]? = some c ∧ c.state = .disconnected := by
  unfold State.free at h
  rw [List.findIdx?_eq_some_iff_getElem] at h
  obtain ⟨hj, hp, -⟩ := h
  refine ⟨s.conn[j], List.getElem?_eq_getElem hj, ?_⟩
  simpa [Slot.live] using hp

/-- No slot is free. -/
theorem State.free_eq_none {s : State} (h : s.free = none) : ∀ c ∈ s.conn, c.state ≠ .disconnected := by
  unfold State.free at h
  rw [List.findIdx?_eq_none_iff] at h
  intro c hc
  simpa [Slot.live] using h c hc

theorem Slot.live_iff (c : Slot) : c.live = true ↔ c.state ≠ .disconnected := by
  simp [Slot.live]

/-- `slotState` of a slot that is there. -/
@[simp] theorem State.slotState_of_slot {s : State} {i : Nat} {c : Slot} (h : s.conn[i]? = some c) :
    s.slotState i = c.state := by
  simp [State.slotState, h]

/-- A slot written through `g` reads as `g` of what it was. -/
theorem modify_get_same {conn : List Slot} {i : Nat} {c : Slot} (h : conn[i]? = some c) (g : Slot → Slot) :
    (conn.modify i g)[i]? = some (g c) := by
  simp [h]

/-- Writing one slot leaves the others alone. -/
theorem modify_get_other {conn : List Slot} {i j : Nat} (h : i ≠ j) (g : Slot → Slot) :
    (conn.modify i g)[j]? = conn[j]? := by
  simp [h]

/-- Writing a slot that is there is setting it. -/
theorem modify_eq_set {conn : List Slot} {i : Nat} {c : Slot} (h : conn[i]? = some c) (g : Slot → Slot) :
    conn.modify i g = conn.set i (g c) := by
  apply List.ext_getElem?
  intro j
  by_cases hij : i = j
  · subst hij
    obtain ⟨hi, -⟩ := List.getElem?_eq_some_iff.1 h
    rw [modify_get_same h, List.getElem?_set_self hi]
  · rw [modify_get_other hij, List.getElem?_set_ne hij]

/-- Two writes of one slot are one write. -/
theorem modify_modify (conn : List Slot) (i : Nat) (g k : Slot → Slot) :
    (conn.modify i g).modify i k = conn.modify i (fun c => k (g c)) := by
  apply List.ext_getElem?
  intro j
  by_cases hij : i = j
  · subst hij
    cases h : conn[i]? <;> simp [h]
  · simp [hij]

/-! ### One slot written -/

/-- A slot that is there has an index of the table. -/
theorem slot_lt {s : State} {i : Nat} {c : Slot} (h : s.conn[i]? = some c) : i < s.conn.length :=
  (List.getElem?_eq_some_iff.1 h).1

/-- `s` with slot `i` become `d` and the outputs `os` appended: the form every connection operation has. -/
def State.putSlot (s : State) (i : Nat) (d : Slot) (os : List Output) : State :=
  { s with conn := s.conn.set i d, out := s.out ++ os }

theorem set_slot_self {s : State} {i : Nat} {c : Slot} (h : s.conn[i]? = some c) : s.conn.set i c = s.conn := by
  obtain ⟨hi, rfl⟩ := List.getElem?_eq_some_iff.1 h
  simp

/-- Start a chain of operations on slot `i` here. -/
theorem putSlot_self {s : State} {i : Nat} {c : Slot} (h : s.conn[i]? = some c) : s.putSlot i c [] = s := by
  simp [State.putSlot, set_slot_self h]

theorem putSlot_updSlot {s : State} {i : Nat} {d : Slot} {os : List Output} (h : i < s.conn.length) (g : Slot → Slot) :
    (s.putSlot i d os).updSlot i g = s.putSlot i (g d) os := by
  have hd : (s.conn.set i d)[i]? = some d := List.getElem?_set_self h
  simp [State.putSlot, State.updSlot, modify_eq_set hd]

theorem putSlot_touch {s : State} {i : Nat} {d : Slot} {os : List Output} (h : i < s.conn.length) :
    (s.putSlot i d os).touch i = s.putSlot i { d with lastActivity := s.now } os := putSlot_updSlot h _

theorem putSlot_setRemote {s : State} {i : Nat} {d : Slot} {os : List Output} (h : i < s.conn.length) (r : Addr) :
    (s.putSlot i d os).setRemote i r = s.putSlot i { d with remote := r } os := putSlot_updSlot h _

theorem putSlot_setRetryCount {s : State} {i : Nat} {d : Slot} {os : List Output} (h : i < s.conn.length)
    (n : BitVec 8) : (s.putSlot i d os).setRetryCount i n = s.putSlot i { d with retryCount := n } os :=
  putSlot_updSlot h _

theorem putSlot_output (s : State) (i : Nat) (d : Slot) (os : List Output) (o : Output) :
    (s.putSlot i d os).output o = s.putSlot i d (os ++ [o]) := by
  simp [State.putSlot, State.output]

theorem putSlot_emitFrame (s : State) (i : Nat) (d : Slot) (os : List Output) (f : Frame) :
    (s.putSlot i d os).emitFrame f = s.putSlot i d (os ++ [.tx (wireOf s.cfg f)]) := putSlot_output _ _ _ _ _

theorem putSlot_setConnState {s : State} {i : Nat} {d : Slot} {os : List Output} (h : i < s.conn.length)
    (n : ConnState) :
    (s.putSlot i d os).setConnState i n =
      s.putSlot i { d with state := n } (os ++ if d.state ≠ n then [.notify i d.remote d.state n] else []) := by
  have hd : (s.conn.set i d)[i]? = some d := List.getElem?_set_self h
  rw [State.setConnState_of_slot (c := d) _ hd]
  simp [State.putSlot, modify_eq_set hd]

/-! ### The handlers: what a next state can be -/

/-- A connection operation writes the slots and the outputs only. -/
def OnlyConnOut (s t : State) : Prop := t = { s with conn := t.conn, out := t.out }

theorem OnlyConnOut.refl (s : State) : OnlyConnOut s s := rfl

theorem OnlyConnOut.trans {s t u : State} (h : OnlyConnOut s t) (k : OnlyConnOut t u) : OnlyConnOut s u := by
  unfold OnlyConnOut at *
  rw [k, h]

theorem OnlyConnOut.output (s : State) (o : Output) : OnlyConnOut s (s.output o) := rfl

theorem OnlyConnOut.raise (s : State) (f : Failure) : OnlyConnOut s (s.raise f) := rfl

theorem OnlyConnOut.emitFrame (s : State) (f : Frame) : OnlyConnOut s (s.emitFrame f) := rfl

theorem OnlyConnOut.updSlot (s : State) (i : Nat) (g : Slot → Slot) : OnlyConnOut s (s.updSlot i g) := rfl

theorem OnlyConnOut.setConnState (s : State) (i : Nat) (new : ConnState) : OnlyConnOut s (s.setConnState i new) :=
  State.setConnState_frame s i new

/-- RX_LINK: nothing, or the slot was DISCONNECTED and S2 is taken (45_connection_fsm.md R176). -/
theorem rxLinkOp_next {s t : State} {i : Nat} (h : rxLinkOp s i = .next t) :
    t = s ∨ ∃ c, s.conn[i]? = some c ∧ c.state = .disconnected ∧
      t = (((s.emitFrame (s.ctl .ack c.remote)).setRetryCount i 0).touch i).setConnState i .connected := by
  unfold rxLinkOp at h
  split at h
  · cases h
  · next c hc =>
    split at h
    · next hs => cases h; exact .inr ⟨c, hc, hs, rfl⟩
    · cases h; exact .inl rfl

/-- RX_ACK: nothing, S3 or S10 (45_connection_fsm.md R177). -/
theorem rxAckOp_next {s t : State} {i : Nat} {f : RxFrame} (h : rxAckOp s i f = .next t) :
    t = s ∨
    (∃ c, s.conn[i]? = some c ∧ c.state = .connecting ∧
      t = ((s.setRemote i (byteAddr f.sender8)).touch i).setConnState i .connected) ∨
    (∃ c, s.conn[i]? = some c ∧ c.state = .disconnecting ∧ t = s.setConnState i .disconnected) := by
  unfold rxAckOp at h
  split at h
  · cases h
  · next c hc =>
    split at h
    · next hs => cases h; exact .inr (.inl ⟨c, hc, hs, rfl⟩)
    · next hs => cases h; exact .inr (.inr ⟨c, hc, hs, rfl⟩)
    · cases h; exact .inl rfl
    · cases h; exact .inl rfl

/-- RX_UNLINK: nothing, or S7 (45_connection_fsm.md R178). -/
theorem rxUnlinkOp_next {s t : State} {i : Nat} (h : rxUnlinkOp s i = .next t) :
    t = s ∨ ∃ c, s.conn[i]? = some c ∧ c.state = .connected ∧
      t = (s.emitFrame (s.ctl .ack c.remote)).setConnState i .disconnected := by
  unfold rxUnlinkOp at h
  split at h
  · cases h
  · next c hc =>
    split at h
    · next hs => cases h; exact .inr ⟨c, hc, hs, rfl⟩
    · cases h; exact .inl rfl

/-- RX_DATA: nothing, or S8 (45_connection_fsm.md R179). -/
theorem rxDataOp_next {s t : State} {i : Nat} {f : RxFrame} (h : rxDataOp s i f = .next t) :
    t = s ∨ ∃ c, s.conn[i]? = some c ∧ c.state = .connected ∧
      t = (if s.cfg.ackOnData then (s.output (.deliver c.remote f.payload)).emitFrame (s.ctl .ack c.remote)
           else s.output (.deliver c.remote f.payload)).touch i := by
  unfold rxDataOp at h
  split at h
  · cases h
  · next c hc =>
    split at h
    · next hs => cases h; exact .inr ⟨c, hc, hs, rfl⟩
    · cases h; exact .inl rfl

/-- RX_RETRY_REQUEST and RX_RESERVED: nothing (45_connection_fsm.md R180, R181). -/
theorem rxIgnoreOp_next {s t : State} {i : Nat} (h : rxIgnoreOp s i = .next t) : t = s := by
  unfold rxIgnoreOp at h
  split at h <;> cases h
  rfl

/-- CONN_RX: nothing, or the frame is considered by a slot that is there and one handler runs
(45_connection_fsm.md R171). -/
theorem connRxOp_next {s t : State} {i : Nat} {f : RxFrame} (h : connRxOp s i f = .next t) :
    t = s ∨ ∃ c, s.conn[i]? = some c ∧ considered s c f = true ∧
      ((f.type8 = typeData ∧ rxDataOp s i f = .next t) ∨ (f.type8 = typeLink ∧ rxLinkOp s i = .next t) ∨
       (f.type8 = typeUnlink ∧ rxUnlinkOp s i = .next t) ∨ (f.type8 = typeAck ∧ rxAckOp s i f = .next t)) := by
  unfold connRxOp at h
  split at h
  · cases h
  · next c hc =>
    split at h
    · next hcon =>
      split at h
      · next ht => exact .inr ⟨c, hc, hcon, .inl ⟨ht, h⟩⟩
      · split at h
        · next ht => exact .inr ⟨c, hc, hcon, .inr (.inl ⟨ht, h⟩)⟩
        · split at h
          · next ht => exact .inr ⟨c, hc, hcon, .inr (.inr (.inl ⟨ht, h⟩))⟩
          · split at h
            · next ht => exact .inr ⟨c, hc, hcon, .inr (.inr (.inr ⟨ht, h⟩))⟩
            · exact .inl (rxIgnoreOp_next h)
    · cases h; exact .inl rfl

/-- ROUTE: nothing; the frame goes to the slot in use for its sender; or a LINK of an unknown peer claims the least
free slot (44_frame_deserializer.md R153). -/
theorem routeOp_next {s t : State} {f : RxFrame} (h : routeOp s f = .next t) :
    t = s ∨
    (∃ i, s.find (byteAddr f.sender8) = some i ∧ connRxOp s i f = .next t) ∨
    (∃ j, s.find (byteAddr f.sender8) = none ∧ f.type8 = typeLink ∧ s.free = some j ∧
      connRxOp (s.setRemote j (byteAddr f.sender8)) j f = .next t) := by
  unfold routeOp at h
  split at h
  · cases h; exact .inl rfl
  · split at h
    · cases h; exact .inl rfl
    · split at h
      · next i hi => exact .inr (.inl ⟨i, hi, h⟩)
      · next hn =>
        split at h
        · next ht =>
          split at h
          · next j hj => exact .inr (.inr ⟨j, hn, ht, hj, h⟩)
          · cases h; exact .inl rfl
        · cases h; exact .inl rfl

theorem rxLinkOp_frame {s t : State} {i : Nat} (h : rxLinkOp s i = .next t) : OnlyConnOut s t := by
  obtain rfl | ⟨c, -, -, rfl⟩ := rxLinkOp_next h
  · exact .refl _
  · exact (((OnlyConnOut.emitFrame _ _).trans (.updSlot _ _ _)).trans (.updSlot _ _ _)).trans (.setConnState _ _ _)

theorem rxAckOp_frame {s t : State} {i : Nat} {f : RxFrame} (h : rxAckOp s i f = .next t) : OnlyConnOut s t := by
  obtain rfl | ⟨c, -, -, rfl⟩ | ⟨c, -, -, rfl⟩ := rxAckOp_next h
  · exact .refl _
  · exact ((OnlyConnOut.updSlot _ _ _).trans (.updSlot _ _ _)).trans (.setConnState _ _ _)
  · exact .setConnState _ _ _

theorem rxUnlinkOp_frame {s t : State} {i : Nat} (h : rxUnlinkOp s i = .next t) : OnlyConnOut s t := by
  obtain rfl | ⟨c, -, -, rfl⟩ := rxUnlinkOp_next h
  · exact .refl _
  · exact (OnlyConnOut.emitFrame _ _).trans (.setConnState _ _ _)

theorem rxDataOp_frame {s t : State} {i : Nat} {f : RxFrame} (h : rxDataOp s i f = .next t) : OnlyConnOut s t := by
  obtain rfl | ⟨c, -, -, rfl⟩ := rxDataOp_next h
  · exact .refl _
  · split
    · exact ((OnlyConnOut.output _ _).trans (.emitFrame _ _)).trans (.updSlot _ _ _)
    · exact (OnlyConnOut.output _ _).trans (.updSlot _ _ _)

theorem connRxOp_frame {s t : State} {i : Nat} {f : RxFrame} (h : connRxOp s i f = .next t) : OnlyConnOut s t := by
  obtain rfl | ⟨c, -, -, ⟨-, h⟩ | ⟨-, h⟩ | ⟨-, h⟩ | ⟨-, h⟩⟩ := connRxOp_next h
  · exact .refl _
  · exact rxDataOp_frame h
  · exact rxLinkOp_frame h
  · exact rxUnlinkOp_frame h
  · exact rxAckOp_frame h

/-- ROUTE writes the slots and the outputs only. -/
theorem routeOp_frame {s t : State} {f : RxFrame} (h : routeOp s f = .next t) : OnlyConnOut s t := by
  obtain rfl | ⟨i, -, h⟩ | ⟨j, -, -, -, h⟩ := routeOp_next h
  · exact .refl _
  · exact connRxOp_frame h
  · exact (OnlyConnOut.updSlot _ _ _).trans (connRxOp_frame h)

/-- What follows a completed buffer writes the slots and the outputs only. -/
theorem frameDone_frame {s t : State} {r : Deserialized} (h : frameDone s r = .next t) : OnlyConnOut s t := by
  unfold frameDone at h
  split at h
  · split at h
    · exact routeOp_frame h
    · cases h; exact .refl _
  · cases h; exact .raise _ _

/-! ### FA_PUSH and the deframer -/

/-- FA_PUSH: the byte is stored; either the buffer is not complete, or it is cleared and its bytes are judged
(44_frame_deserializer.md R151). -/
theorem faPushOp_next {s t : State} {d : Byte} (h : faPushOp s d = .next t) :
    s.faCount.toNat < frameMax ∧
    ((t = { s with faBuf := bufInsert s.faBuf s.faCount.toNat d, faCount := s.faCount + 1 } ∧
       ((s.faCount + 1).toNat < 5 ∨ ∃ len : Byte, bufRead (bufInsert s.faBuf s.faCount.toNat d) 4 = some len ∧
         (s.faCount + 1).toNat < len.toNat + frameOverhead)) ∨
     ∃ len bytes, 5 ≤ (s.faCount + 1).toNat ∧ bufRead (bufInsert s.faBuf s.faCount.toNat d) 4 = some len ∧
       len.toNat + frameOverhead ≤ (s.faCount + 1).toNat ∧
       memRead (bufInsert s.faBuf s.faCount.toNat d) 0 (s.faCount + 1).toNat = some bytes ∧
       frameDone { s with faBuf := bufInsert s.faBuf s.faCount.toNat d, faCount := 0 } (deserializeOp s.cfg bytes) =
         .next t) := by
  unfold faPushOp at h
  split at h
  · cases h
  · next buf hb =>
    have hlt : s.faCount.toNat < frameMax := (memWrite_spec hb).1
    rw [memWrite_of_lt _ _ hlt] at hb
    cases hb
    refine ⟨hlt, ?_⟩
    simp only at h
    split at h
    · next h5 =>
      split at h
      · cases h
      · next len hl =>
        split at h
        · next hle =>
          split at h
          · cases h
          · next bytes hbs => exact .inr ⟨len, bytes, h5, hl, hle, hbs, h⟩
        · next hle => cases h; exact .inl ⟨rfl, .inr ⟨len, hl, by omega⟩⟩
    · next h5 => cases h; exact .inl ⟨rfl, .inl (by omega)⟩

/-- BM_RXBYTE: SCAN moves to CW on MARKER or stays; CW takes the byte; END discards the unit, stores an upper nibble, or
hands an assembled byte to FA_PUSH (42_byte_marker_codec.md R122 to R124). -/
theorem bmRxByteOp_next {s t : State} {b : Byte} (h : bmRxByteOp s b = .next t) :
    (s.bmPos = .scan ∧ ((b ≠ s.cfg.marker ∧ t = s) ∨ (b = s.cfg.marker ∧ t = { s with bmPos := .cw }))) ∨
    (s.bmPos = .cw ∧ t = { s with bmCw := b, bmPos := .close }) ∨
    (s.bmPos = .close ∧
      ((b ≠ s.cfg.marker ∧ t = { s with bmPos := .scan }) ∨
       (b = s.cfg.marker ∧ s.bmHaveUpper = false ∧
        t = { s with bmPos := .scan, bmUpper := hdecOp s.cfg.nibbleBitOrder (byteCodeword s.bmCw), bmHaveUpper := true }) ∨
       (b = s.cfg.marker ∧ s.bmHaveUpper = true ∧
        faPushOp { s with bmPos := .scan, bmHaveUpper := false }
          (assembleByte s.bmUpper (hdecOp s.cfg.nibbleBitOrder (byteCodeword s.bmCw))) = .next t))) := by
  unfold bmRxByteOp at h
  split at h
  · next hp =>
    refine .inl ⟨hp, ?_⟩
    unfold bmScan at h
    split at h
    · next hm => cases h; exact .inr ⟨hm, rfl⟩
    · next hm => cases h; exact .inl ⟨hm, rfl⟩
  · next hp => cases h; exact .inr (.inl ⟨hp, rfl⟩)
  · next hp =>
    refine .inr (.inr ⟨hp, ?_⟩)
    unfold bmClose at h
    split at h
    · next hm =>
      simp only at h
      split at h
      · next hu => exact .inr (.inr ⟨hm, hu, h⟩)
      · next hu => cases h; exact .inr (.inl ⟨hm, by simpa using hu, rfl⟩)
    · next hm => cases h; exact .inl ⟨hm, rfl⟩

/-! ### The timer -/

/-- RETRY: nothing, or the pending frame again with the count one higher (45_connection_fsm.md R184). -/
theorem retryOp_cases (s : State) (i : Nat) (c : Slot) :
    retryOp s i c = s ∨
    ((c.state = .connecting ∨ c.state = .disconnecting) ∧ c.retryCount.toNat < s.cfg.maxRetries ∧
      retryOp s i c = ((s.emitFrame (s.ctl (if c.state = .connecting then .link else .unlink) c.remote)).setRetryCount i
        (c.retryCount + 1)).touch i) := by
  unfold retryOp
  split
  · next h => exact .inr ⟨h.1, h.2, rfl⟩
  · exact .inl rfl

/-- TICK on one slot: nothing, RETRY, or to DISCONNECTED (45_connection_fsm.md R183). -/
theorem tickSlot_cases (s : State) (i : Nat) :
    tickSlot s i = s ∨
    (∃ c, s.conn[i]? = some c ∧ c.live = true ∧ tickSlot s i = retryOp s i c) ∨
    (∃ c, s.conn[i]? = some c ∧ c.live = true ∧ tickSlot s i = s.setConnState i .disconnected) := by
  unfold tickSlot
  split
  · exact .inl rfl
  · next c hc =>
    have hlive : ∀ st, c.state = st → st ≠ .disconnected → c.live = true := by
      intro st h1 h2; rw [Slot.live_iff, h1]; exact h2
    simp only
    split
    · next hs =>
      split
      · split
        · exact .inr (.inl ⟨c, hc, hlive _ hs (by decide), rfl⟩)
        · exact .inr (.inr ⟨c, hc, hlive _ hs (by decide), rfl⟩)
      · exact .inl rfl
    · next hs =>
      split
      · split
        · exact .inr (.inl ⟨c, hc, hlive _ hs (by decide), rfl⟩)
        · exact .inr (.inr ⟨c, hc, hlive _ hs (by decide), rfl⟩)
      · exact .inl rfl
    · next hs =>
      split
      · exact .inr (.inr ⟨c, hc, hlive _ hs (by decide), rfl⟩)
      · exact .inl rfl
    · exact .inl rfl

theorem retryOp_frame (s : State) (i : Nat) (c : Slot) : OnlyConnOut s (retryOp s i c) := by
  obtain h | ⟨-, -, h⟩ := retryOp_cases s i c
  · rw [h]; exact .refl _
  · rw [h]; exact ((OnlyConnOut.emitFrame _ _).trans (.updSlot _ _ _)).trans (.updSlot _ _ _)

theorem tickSlot_frame (s : State) (i : Nat) : OnlyConnOut s (tickSlot s i) := by
  obtain h | ⟨c, -, -, h⟩ | ⟨c, -, -, h⟩ := tickSlot_cases s i
  · rw [h]; exact .refl _
  · rw [h]; exact retryOp_frame s i c
  · rw [h]; exact .setConnState _ _ _

/-- TICK writes the slots and the outputs only. -/
theorem tickSlots_frame (is : List Nat) (s : State) : OnlyConnOut s (tickSlots is s) := by
  induction is generalizing s with
  | nil => exact .refl _
  | cons i is ih => exact (tickSlot_frame s i).trans (ih _)

/-- What one slot's TICK keeps, the whole TICK keeps. -/
theorem tickSlots_induction {P : State → Prop} (h : ∀ s i, P s → P (tickSlot s i)) (is : List Nat) (s : State)
    (hs : P s) : P (tickSlots is s) := by
  induction is generalizing s with
  | nil => exact hs
  | cons i is ih => exact ih _ (h s i hs)

end Sys2Proof.Machine
end

