-- ==== Sys2Proof/Laws/PerInstr.lean ====
section
/-! SUPPORT. Statements about every operation as syntax, one lemma for each constructor of `Instr`. -/

namespace Sys2Proof.Laws

/-- The encoding of an operation is presented on one of the agents' ports exactly when the operation is one of the seven
events of 00_scope.md R14. -/
def AgentPort.Statement (op : Instr) : Prop :=
  ∀ cfg : Config, (Machine.Input.word (encode cfg op)).agentEvent = op.agentEvent

theorem AgentPort.henc (n : Nibble) : AgentPort.Statement (.henc n) := fun _ => rfl

theorem AgentPort.hdec (c : Codeword) : AgentPort.Statement (.hdec c) := fun _ => rfl

theorem AgentPort.bmEnc (bs : List Byte) : AgentPort.Statement (.bmEnc bs) := fun _ => rfl

theorem AgentPort.bmRxByte (b : Byte) : AgentPort.Statement (.bmRxByte b) := fun _ => rfl

theorem AgentPort.bmRxTimeout : AgentPort.Statement (.bmRxTimeout) := fun _ => rfl

theorem AgentPort.serialize (f : Frame) : AgentPort.Statement (.serialize f) := fun _ => rfl

theorem AgentPort.emit (f : Frame) : AgentPort.Statement (.emit f) := fun _ => rfl

theorem AgentPort.deserialize (buf : List Byte) : AgentPort.Statement (.deserialize buf) := fun _ => rfl

theorem AgentPort.faPush (d : Byte) : AgentPort.Statement (.faPush d) := fun _ => rfl

theorem AgentPort.accept (f : RxFrame) : AgentPort.Statement (.accept f) := fun _ => rfl

theorem AgentPort.route (f : RxFrame) : AgentPort.Statement (.route f) := fun _ => rfl

theorem AgentPort.connRx (i : Nat) (f : RxFrame) : AgentPort.Statement (.connRx i f) := fun _ => rfl

theorem AgentPort.cmdConnect (r : Addr) : AgentPort.Statement (.cmdConnect r) := fun _ => rfl

theorem AgentPort.cmdDisconnect (r : Addr) : AgentPort.Statement (.cmdDisconnect r) := fun _ => rfl

theorem AgentPort.cmdSend (r : Addr) (payload : List Byte) : AgentPort.Statement (.cmdSend r payload) := fun _ => rfl

theorem AgentPort.cmdAbort (r : Addr) : AgentPort.Statement (.cmdAbort r) := fun _ => rfl

theorem AgentPort.rxData (i : Nat) (f : RxFrame) : AgentPort.Statement (.rxData i f) := fun _ => rfl

theorem AgentPort.rxLink (i : Nat) (f : RxFrame) : AgentPort.Statement (.rxLink i f) := fun _ => rfl

theorem AgentPort.rxUnlink (i : Nat) (f : RxFrame) : AgentPort.Statement (.rxUnlink i f) := fun _ => rfl

theorem AgentPort.rxAck (i : Nat) (f : RxFrame) : AgentPort.Statement (.rxAck i f) := fun _ => rfl

theorem AgentPort.rxRetryRequest (i : Nat) (f : RxFrame) : AgentPort.Statement (.rxRetryRequest i f) := fun _ => rfl

theorem AgentPort.rxReserved (i : Nat) (f : RxFrame) : AgentPort.Statement (.rxReserved i f) := fun _ => rfl

theorem AgentPort.tick : AgentPort.Statement (.tick) := fun _ => rfl

theorem AgentPort.retry (i : Nat) : AgentPort.Statement (.retry i) := fun _ => rfl

theorem AgentPort.giveUp (i : Nat) : AgentPort.Statement (.giveUp i) := fun _ => rfl

theorem AgentPort.idleDrop (i : Nat) : AgentPort.Statement (.idleDrop i) := fun _ => rfl

end Sys2Proof.Laws
end

