-- ==== Sys2Proof/Laws/Run.lean ====
section
/-! SUPPORT. How runs of events and lists of notifications come apart: going on from an outcome, a run of wire bytes in
two parts, a mirror over two lists of outputs. -/

namespace Sys2Proof.Machine

@[simp] theorem andThen_next (s : State) (k : State → Out) : andThen (.next s) k = k s := rfl

@[simp] theorem andThen_assoc (o : Out) (k l : State → Out) :
    andThen (andThen o k) l = andThen o (fun s => andThen (k s) l) := by
  cases o <;> rfl

@[simp] theorem andThen_pure (o : Out) : andThen o .next = o := by cases o <;> rfl

/-- What follows an outcome matters at its next state only. -/
theorem andThen_congr {o : Out} {k l : State → Out} (h : ∀ t, o = .next t → k t = l t) : andThen o k = andThen o l := by
  cases o with
  | next t => exact h t rfl
  | fault r => rfl
  | refused r => rfl

/-- A next state of a sequence of two is the second's, from a next state of the first. -/
theorem andThen_eq_next {o : Out} {k : State → Out} {t : State} (h : andThen o k = .next t) :
    ∃ s, o = .next s ∧ k s = .next t := by
  cases o with
  | next s => exact ⟨s, rfl, h⟩
  | fault r => cases h
  | refused r => cases h

/-- A run of wire bytes in two parts. -/
theorem feed_append (a b : List Byte) (s : State) : feed (a ++ b) s = andThen (feed a s) (feed b) := by
  induction a generalizing s with
  | nil => rfl
  | cons x a ih =>
    simp only [List.cons_append, feed, andThen_assoc]
    exact andThen_congr (fun t _ => ih t)

/-- The mirror of two lists of outputs, one after the other. -/
theorem mirror_append (a b : List Output) (states : List ConnState) :
    mirror (a ++ b) states = (mirror a states).bind (mirror b) := by
  induction a generalizing states with
  | nil => rfl
  | cons o a ih =>
    simp only [List.cons_append, mirror]
    cases mirrorOne states o with
    | some states' => exact ih states'
    | none => rfl

end Sys2Proof.Machine
end

