-- ==== Sys2Proof/Laws/Step.lean ====
section
/-! SUPPORT. What a step can do, once: the block is idle, takes `rst`, passes over a port with no event, or runs the
decoded operation. -/

namespace Sys2Proof.Machine

/-- The next state of taking one input. -/
theorem takeInput_next {inp : Input} {s t : State} (h : takeInput inp s = .next t) :
    (∃ a, inp = .rst a ∧ a ≠ broadcast ∧ t = s.applyReset a) ∨
    (∃ p, inp = .word p ∧ ((decode s.cfg p = .noEvent ∧ t = s) ∨
      ∃ i, decode s.cfg p = .instr i ∧ exec i s = .next t)) := by
  unfold takeInput at h
  split at h
  · next a =>
    split at h
    · cases h
    · next ha => cases h; exact .inl ⟨a, rfl, ha, rfl⟩
  · next p =>
    refine .inr ⟨p, rfl, ?_⟩
    split at h
    · next i hi => exact .inr ⟨i, hi, h⟩
    · next hn => cases h; exact .inl ⟨hn, rfl⟩
    · cases h

/-- The next state of a step: the configuration is legal, and the block is idle or takes the first event. -/
theorem step_next {s t : State} (h : step s = .next t) :
    s.configOk = true ∧
    ((s.inputs = [] ∧ t = s) ∨
     ∃ e rest, s.inputs = e :: rest ∧ s.time ≤ e.time ∧ takeInput e.input (s.taking e rest) = .next t) := by
  unfold step at h
  split at h
  · next hc =>
    refine ⟨hc, ?_⟩
    split at h
    · next hn => cases h; exact .inl ⟨hn, rfl⟩
    · next e rest he =>
      split at h
      · cases h
      · next ht => exact .inr ⟨e, rest, he, by omega, h⟩
  · cases h

/-- A step with no event left is idle. -/
theorem step_idle {s : State} (hc : s.configOk = true) (hn : s.inputs = []) : step s = .next s := by
  simp [step, hc, hn]

/-- A step takes the first event. -/
theorem step_take {s : State} {e : Event} {rest : List Event} (hc : s.configOk = true) (he : s.inputs = e :: rest)
    (ht : s.time ≤ e.time) : step s = takeInput e.input (s.taking e rest) := by
  simp [step, hc, he, Nat.not_lt.mpr ht]

end Sys2Proof.Machine
end

