-- ==== Sys2Proof/Tests/Slice0.lean ====
section
/-! SUPPORT. Tests: the ill-formed terms WellFormed refuses, a word of every operation written out from 30_encoding.md and
spec/opcode_table.json, single steps with the results of 95_test_vectors.md, and for every statement with hypotheses a
witness that meets them. -/

namespace Sys2Proof.Tests

open Sys2Proof.Machine Sys2Proof.Terms

/-! ### Helpers -/

/-- A block after reset with a given connection table, at a given time. -/
def node (cfg : Config) (a : Addr) (conn : List Slot) (t : Nat) : State :=
  { State.resetWith cfg a with conn := conn, time := t }

/-- Node A of 95_test_vectors.md (0x10) with one slot. -/
def nodeA (c : Slot) (t : Nat) : State := node Config.cfgA 0x10 [c] t

/-- Node B of 95_test_vectors.md (0x01) with one slot. -/
def nodeB (c : Slot) (t : Nat) : State := node Config.cfgA 0x01 [c] t

/-- A slot written as 95_test_vectors.md writes it. -/
def slot (st : ConnState) (r : Addr) (last : Nat) (n : BitVec 8) : Slot := ⟨st, r, last, n⟩

/-- `s` with bytes buffered. -/
def holding (s : State) (bs : List Byte) : State :=
  { s with faBuf := bs.zipIdx.map (fun p => (p.2, p.1)), faCount := BitVec.ofNat 9 bs.length }

/-- `s` with one word to be presented at its current time. -/
def presenting (s : State) (p : Presented) : State := { s with inputs := [⟨s.time, .word p⟩] }

/-- The next state has a property. -/
def nextIs (o : Out) (p : State → Bool) : Bool :=
  match o with
  | .next s => p s
  | .fault _ => false
  | .refused _ => false

/-- The outcome is this fault. -/
def faultIs (o : Out) (r : Fault) : Bool :=
  match o with
  | .next _ => false
  | .fault q => decide (q = r)
  | .refused _ => false

/-- The outcome is this refusal. -/
def refusalIs (o : Out) (r : Refusal) : Bool :=
  match o with
  | .next _ => false
  | .fault _ => false
  | .refused q => decide (q = r)

/-- 256 bytes: one more than a payload can have. -/
def longPayload : List Byte := List.replicate 256 0

/-- An RxFrame from 0x10 to 0x01 with a TYPE byte and a payload. -/
def rx (ty : Byte) (payload : List Byte) : RxFrame := ⟨0x01, 0x10, ty, payload⟩

/-- An RxFrame from 0x01 to 0x10 with a TYPE byte and no payload (V45-2). -/
def toA (ty : Byte) : RxFrame := ⟨0x10, 0x01, ty, []⟩

/-! ### WellFormed refuses -/

theorem test_wf_serialize : Instr.wellFormed Config.cfgA (.serialize ⟨1, 2, .data, longPayload⟩) = false := by decide +kernel
theorem test_wf_emit : Instr.wellFormed Config.cfgA (.emit ⟨1, 2, .data, longPayload⟩) = false := by decide +kernel
theorem test_wf_accept : Instr.wellFormed Config.cfgA (.accept (rx 1 longPayload)) = false := by decide +kernel
theorem test_wf_route : Instr.wellFormed Config.cfgA (.route (rx 1 longPayload)) = false := by decide +kernel
theorem test_wf_connRx :
    Instr.wellFormed Config.cfgA (.connRx 1 (rx 1 [])) = false ∧
    Instr.wellFormed Config.cfgA (.connRx 0 (rx 1 longPayload)) = false := by decide +kernel
theorem test_wf_cmdSend : Instr.wellFormed Config.cfgA (.cmdSend 1 longPayload) = false := by decide +kernel
theorem test_wf_rxData :
    Instr.wellFormed Config.cfgA (.rxData 1 (rx 1 [])) = false ∧
    Instr.wellFormed Config.cfgA (.rxData 0 (rx 2 [])) = false ∧
    Instr.wellFormed Config.cfgA (.rxData 0 (rx 1 longPayload)) = false := by decide +kernel
theorem test_wf_handlers :
    Instr.wellFormed Config.cfgA (.rxLink 0 (rx 1 [])) = false ∧
    Instr.wellFormed Config.cfgA (.rxUnlink 0 (rx 1 [])) = false ∧
    Instr.wellFormed Config.cfgA (.rxAck 0 (rx 1 [])) = false ∧
    Instr.wellFormed Config.cfgA (.rxRetryRequest 0 (rx 1 [])) = false ∧
    Instr.wellFormed Config.cfgA (.rxReserved 0 (rx 5 [])) = false := by decide +kernel
theorem test_wf_actions :
    Instr.wellFormed Config.cfgA (.retry 1) = false ∧ Instr.wellFormed Config.cfgA (.giveUp 1) = false ∧
    Instr.wellFormed Config.cfgA (.idleDrop 1) = false := by decide +kernel
/-- The bounds themselves are well formed: 255 bytes, slot `N_CONN - 1`, TYPE 0x00, 0x06 and 0xFF. -/
theorem test_wf_bounds :
    Instr.wellFormed Config.cfgA (.cmdSend 0x7F (List.replicate 255 0)) = true ∧
    Instr.wellFormed Config.cfgA (.retry 0) = true ∧
    Instr.wellFormed Config.cfgA (.rxReserved 0 (rx 0x00 [])) = true ∧
    Instr.wellFormed Config.cfgA (.rxReserved 0 (rx 0x06 [])) = true ∧
    Instr.wellFormed Config.cfgA (.rxReserved 0 (rx 0xFF [])) = true := by decide +kernel
/-- 00_scope.md R7: a timeout of 0, of half the timestamp range, no slot, and 256 retries. -/
theorem test_config_constraints :
    Config.valid { Config.cfgA with retryTimeout := 0 } = false ∧
    Config.valid { Config.cfgA with idleTimeout := 32768 } = false ∧
    Config.valid { Config.cfgA with nConn := 0 } = false ∧
    Config.valid { Config.cfgA with maxRetries := 256 } = false ∧ Config.cfgA.valid = true ∧ Config.cfgB.valid = true := by
  decide

/-! ### A word of every operation -/

/-- 30_encoding.md R71: 1010101 is the codeword of 0xB. -/
theorem decode_henc : decode Config.cfgA ⟨.henc, 0, [0b01010101]⟩ = .instr (.henc 0xB) := by decide
/-- 30_encoding.md R71: any of the 128 words, here 1010001. -/
theorem decode_hdec : decode Config.cfgA ⟨.hdec, 0, [0b01010001]⟩ = .instr (.hdec 0b1010001) := by decide
/-- 30_encoding.md R74 with MARKER 0xFF: V42-1. -/
theorem decode_bmEnc :
    decode Config.cfgA ⟨.bmEnc, 0, [0xFF, 0x33, 0xFF, 0xFF, 0x4B, 0xFF]⟩ = .instr (.bmEnc [0x68]) := by decide
/-- 30_encoding.md R86: `x1bbbbbbbb`. -/
theorem decode_bmRxByte : decode Config.cfgA ⟨.rxp, 0, [0b01, 0b00110011]⟩ = .instr (.bmRxByte 0x33) := by decide
/-- 30_encoding.md R86: `10xxxxxxxx`. -/
theorem decode_bmRxTimeout : decode Config.cfgA ⟨.rxp, 0, [0b10, 0b11111111]⟩ = .instr .bmRxTimeout := by decide
/-- 30_encoding.md R75: V43-2. -/
theorem decode_serialize :
    decode Config.cfgA ⟨.serialize, 0, [0x02, 0x01, 0x10, 0x01, 0x02, 0x68, 0x69, 0x03]⟩ =
      .instr (.serialize ⟨0x01, 0x10, .data, [0x68, 0x69]⟩) := by decide
/-- 30_encoding.md R75: the UNLINK of V43-6. -/
theorem decode_emit :
    decode Config.cfgA ⟨.emit, 0, [0x02, 0x01, 0x10, 0x03, 0x00, 0x03]⟩ =
      .instr (.emit ⟨0x01, 0x10, .unlink, []⟩) := by decide
theorem decode_deserialize :
    decode Config.cfgA ⟨.deserialize, 0, [0x02, 0x01]⟩ = .instr (.deserialize [0x02, 0x01]) := by decide
theorem decode_faPush : decode Config.cfgA ⟨.faPush, 0, [0b01101000]⟩ = .instr (.faPush 0x68) := by decide
/-- The table's `x` of ACCEPT is receiver8 (log 11 for the other bytes). -/
theorem decode_accept :
    decode Config.cfgA ⟨.accept, 0, [0x7F, 0x10, 0x02, 0x00]⟩ = .instr (.accept ⟨0x7F, 0x10, 0x02, []⟩) := by decide
/-- The table's `x` of ROUTE is sender8. -/
theorem decode_route :
    decode Config.cfgA ⟨.route, 0, [0x10, 0x01, 0x02, 0x00]⟩ = .instr (.route ⟨0x01, 0x10, 0x02, []⟩) := by decide
/-- The table's `x` of CONN_RX is type8. -/
theorem decode_connRx :
    decode Config.cfgA ⟨.connRx, 0, [0x02, 0x01, 0x10, 0x00]⟩ = .instr (.connRx 0 ⟨0x01, 0x10, 0x02, []⟩) := by decide
/-- 30_encoding.md R84: `001rrrrrrr`, `010rrrrrrr`, `011rrrrrrr`, `100rrrrrrr` with r = 0000001. -/
theorem decode_cmdConnect : decode Config.cfgA ⟨.cmd, 0, [0b00, 0b10000001]⟩ = .instr (.cmdConnect 0x01) := by decide
theorem decode_cmdDisconnect :
    decode Config.cfgA ⟨.cmd, 0, [0b01, 0b00000001]⟩ = .instr (.cmdDisconnect 0x01) := by decide
theorem decode_cmdSend :
    decode Config.cfgA ⟨.cmd, 0, [0b01, 0b10000001, 0x01, 0x41]⟩ = .instr (.cmdSend 0x01 [0x41]) := by decide
theorem decode_cmdAbort : decode Config.cfgA ⟨.cmd, 0, [0b10, 0b00000001]⟩ = .instr (.cmdAbort 0x01) := by decide
/-- 30_encoding.md R75, R76: the header's TYPE byte is the fourth. -/
theorem decode_rxData :
    decode Config.cfgA ⟨.rxFrame, 0, [0x02, 0x01, 0x10, 0x01, 0x01, 0x41, 0x03]⟩ =
      .instr (.rxData 0 (rx 0x01 [0x41])) := by decide
theorem decode_rxLink :
    decode Config.cfgA ⟨.rxFrame, 0, [0x02, 0x01, 0x10, 0x02, 0x00, 0x03]⟩ = .instr (.rxLink 0 (rx 0x02 [])) := by
  decide
theorem decode_rxUnlink :
    decode Config.cfgA ⟨.rxFrame, 0, [0x02, 0x01, 0x10, 0x03, 0x00, 0x03]⟩ = .instr (.rxUnlink 0 (rx 0x03 [])) := by
  decide
theorem decode_rxAck :
    decode Config.cfgA ⟨.rxFrame, 0, [0x02, 0x01, 0x10, 0x04, 0x00, 0x03]⟩ = .instr (.rxAck 0 (rx 0x04 [])) := by decide
theorem decode_rxRetryRequest :
    decode Config.cfgA ⟨.rxFrame, 0, [0x02, 0x01, 0x10, 0x05, 0x00, 0x03]⟩ =
      .instr (.rxRetryRequest 0 (rx 0x05 [])) := by decide
theorem decode_rxReserved :
    decode Config.cfgA ⟨.rxFrame, 0, [0x02, 0x01, 0x10, 0x09, 0x00, 0x03]⟩ = .instr (.rxReserved 0 (rx 0x09 [])) ∧
    decode Config.cfgA ⟨.rxFrame, 0, [0x02, 0x01, 0x10, 0x00, 0x00, 0x03]⟩ = .instr (.rxReserved 0 (rx 0x00 [])) := by
  decide
theorem decode_tick : decode Config.cfgA ⟨.tick, 0, [1]⟩ = .instr .tick := by decide
theorem decode_slot_actions :
    decode Config.cfgA ⟨.retry, 0, [0]⟩ = .instr (.retry 0) ∧ decode Config.cfgA ⟨.giveUp, 0, [1]⟩ = .instr (.giveUp 0) ∧
    decode Config.cfgA ⟨.idleDrop, 0, [0]⟩ = .instr (.idleDrop 0) := by decide
/-- Words that are no operation: `cmd_op` 0, a SEND one byte short, a bit beside the port, a parity error on HENC's
interface, a FRAME with bit 7 of RECEIVER set, slot 1 of one. -/
theorem decode_rejects :
    decode Config.cfgA ⟨.cmd, 0, [0x00, 0x01]⟩ = .reject .reservedCommand ∧
    decode Config.cfgA ⟨.cmd, 0, [0x01, 0x81, 0x02, 0x41]⟩ = .reject .badPayloadLength ∧
    decode Config.cfgA ⟨.rxp, 0, [0x05, 0x33]⟩ = .reject (.malformedWord .rxp) ∧
    decode Config.cfgA ⟨.henc, 0, [0x51]⟩ = .reject .notACodeword ∧
    decode Config.cfgA ⟨.bmEnc, 0, [0xFE, 0x33, 0xFF, 0xFF, 0x4B, 0xFF]⟩ = .reject .notAByte2 ∧
    decode Config.cfgA ⟨.serialize, 0, [0x02, 0x81, 0x10, 0x02, 0x00, 0x03]⟩ = .reject .notAFrame ∧
    decode Config.cfgA ⟨.rxFrame, 1, [0x02, 0x01, 0x10, 0x02, 0x00, 0x03]⟩ = .reject .noSuchSlot := by decide
/-- Words numbered as spec/opcode_table.json numbers them. -/
theorem test_table_words :
    decodeTableWord 10 0b0010000001 = some (.cmdConnect 0x01) ∧ decodeTableWord 10 0b1000000000 = some (.cmdAbort 0) ∧
    decodeTableWord 10 0b1011111111 = some .bmRxTimeout ∧ decodeTableWord 7 0b1010001 = some (.hdec 0x51) ∧
    decodeTableWord 24 0xFF33FF = some (.bmRxByte 0xFF) ∧ decodeTableWord 40 0x0201100300 = some (.rxUnlink 0 (rx 3 [])) ∧
    decodeTableWord 48 0xFF33FFFF4BFF = some (.bmEnc [0x68]) ∧ decodeTableWord 1 1 = some .tick := by decide
/-- The model's choice where a word of up to 8 bits is 1 (log 10): TICK, while port HDEC reads 0x01 as HDEC's. -/
theorem test_table_word_one :
    decodeTableWord 8 1 = some .tick ∧ decodeTableWord 8 2 = some (.hdec 0x02) ∧ decodeTableWord 8 0 = some (.hdec 0x00) ∧
    decode Config.cfgA ⟨.hdec, 0, [0x01]⟩ = .instr (.hdec 0x01) := by decide
/-- The next step after `withFetchWord` runs that word: CMD_CONNECT to 0x01. -/
theorem test_fetch :
    nextIs (step (State.reset.withFetchWord 10 0b0010000001))
      (fun t => decide (t.conn = [slot .connecting 0x01 0 0] ∧ t.inputs = [])) = true := by decide

/-! ### Single steps with the results of 95_test_vectors.md -/

/-- V40-5; V40-2 at 0x8. -/
theorem test_henc :
    nextIs (exec (.henc 0xB) State.reset) (fun t => decide (t.results = [.codeword 0x55])) = true ∧
    hencOp .msbFirst 0x8 = 0x07 := by decide
/-- V41-5, V41-10, V41-12, V41-15. -/
theorem test_hdec :
    nextIs (exec (.hdec 0x15) State.reset) (fun t => decide (t.results = [.nibble 0xB])) = true ∧
    hdecOp .lsbFirst 0x1D = 0x2 ∧ hdecOp .lsbFirst 0x70 = 0xE ∧ hdecOp .msbFirst 0x55 = 0xD := by decide
/-- V42-2 at 0xA5. -/
theorem test_bmEnc :
    nextIs (exec (.bmEnc [0xA5]) State.reset)
      (fun t => decide (t.results = [.wire [0xFF, 0x52, 0xFF, 0xFF, 0x2D, 0xFF]])) = true := by decide
/-- V42-7: the sixth byte pushes 0x68 although the first codeword byte was damaged. -/
theorem test_bmRxByte :
    nextIs (feed [0xFF, 0x37, 0xFF, 0xFF, 0x4B, 0xFF] State.reset)
      (fun t => decide (t.faBuf = [(0, 0x68)] ∧ t.bmPos = .scan ∧ t.bmHaveUpper = false)) = true := by decide
/-- V42-5: a bad unit is discarded. -/
theorem test_bmRxByte_garbage :
    nextIs (feed [0xFF, 0xAB, 0x00] State.reset)
      (fun t => decide (t.faCount = 0 ∧ t.bmPos = .scan ∧ t.bmHaveUpper = false)) = true := by decide
/-- V42-15. -/
theorem test_bmRxTimeout :
    nextIs (exec .bmRxTimeout { State.reset with bmPos := .close, bmCw := 0x33 }) (fun t => decide (t.bmPos = .scan)) = true :=
  by decide
/-- V43-2. -/
theorem test_serialize :
    nextIs (exec (.serialize ⟨0x01, 0x10, .data, [0x68, 0x69]⟩) State.reset)
      (fun t => decide (t.results = [.bytes [0x02, 0x01, 0x10, 0x01, 0x02, 0x68, 0x69, 0x03]])) = true := by decide
/-- The first 12 wire bytes of V43-1. -/
theorem test_emit :
    nextIs (exec (.emit ⟨0x01, 0x10, .link, []⟩) State.reset)
      (fun t => decide ((txStream t.out).take 12 =
        [0xFF, 0x00, 0xFF, 0xFF, 0x19, 0xFF, 0xFF, 0x00, 0xFF, 0xFF, 0x07, 0xFF] ∧ (txStream t.out).length = 36)) = true := by
  decide
/-- V44-3, V44-5, V44-6. -/
theorem test_deserialize_failures :
    deserializeOp Config.cfgA [0x02, 0x01, 0x10, 0x02, 0x00] = .fail .frameTooShort ∧
    deserializeOp Config.cfgA [0x02, 0x01, 0x10, 0x02, 0x00, 0x00] = .fail .invalidDelimiters ∧
    deserializeOp Config.cfgA [0x02, 0x01, 0x10, 0x01, 0x00, 0x68, 0x03] = .fail .lengthMismatch := by decide
/-- V44-8. -/
theorem test_deserialize :
    nextIs (exec (.deserialize [0x02, 0x81, 0x90, 0x09, 0x00, 0x03]) State.reset)
      (fun t => decide (t.results = [.deserialized (.ok ⟨0x81, 0x90, 0x09, []⟩)])) = true := by decide
/-- V44-12: the last byte of a LINK. -/
theorem test_faPush :
    nextIs (exec (.faPush 0x03) (holding (nodeB Slot.reset 0) [0x02, 0x01, 0x10, 0x02, 0x00]))
      (fun t => decide (t.faCount = 0 ∧ t.conn = [slot .connected 0x10 0 0] ∧
        t.out.getLast? = some (.notify 0 0x10 .disconnected .connected))) = true := by decide
/-- V44-13. -/
theorem test_faPush_bad :
    nextIs (exec (.faPush 0x03) (holding (nodeB Slot.reset 0) [0x00, 0x01, 0x10, 0x02, 0x00]))
      (fun t => decide (t.faCount = 0 ∧ t.out = [.frameErr .invalidDelimiters] ∧ t.conn = [Slot.reset])) = true := by decide
/-- V44-18, V44-19, V44-20. -/
theorem test_accept :
    acceptOp (nodeB Slot.reset 1) ⟨0x10, 0x10, 0x02, []⟩ = false ∧ acceptOp (nodeB Slot.reset 1) ⟨0x7F, 0x10, 0x02, []⟩ = true ∧
    acceptOp (nodeB Slot.reset 1) ⟨0x81, 0x10, 0x02, []⟩ = false := by decide
/-- V44-23; V44-22. -/
theorem test_route :
    nextIs (exec (.route (rx 0x02 [])) (nodeB Slot.reset 1)) (fun t => decide (t.conn = [slot .connected 0x10 1 0])) = true ∧
    nextIs (exec (.route ⟨0x01, 0x22, 0x04, []⟩) (nodeB Slot.reset 1)) (fun t => decide (t = nodeB Slot.reset 1)) = true := by
  decide
/-- V45-2, CONNECTING, ACK and UNLINK. -/
theorem test_connRx :
    nextIs (exec (.connRx 0 (toA 0x04)) (nodeA (slot .connecting 0x01 0 0) 7))
      (fun t => decide (t.conn = [slot .connected 0x01 7 0] ∧ t.out = [.notify 0 0x01 .connecting .connected])) = true ∧
    nextIs (exec (.connRx 0 (toA 0x03)) (nodeA (slot .connecting 0x01 0 0) 7))
      (fun t => decide (t = nodeA (slot .connecting 0x01 0 0) 7)) = true := by decide
/-- V45-1, DISCONNECTED; V45-3. -/
theorem test_cmdConnect :
    nextIs (exec (.cmdConnect 0x01) (nodeA Slot.reset 5))
      (fun t => decide (t.conn = [slot .connecting 0x01 5 0] ∧ t.out.getLast? = some (.status .ok))) = true ∧
    nextIs (exec (.cmdConnect 0x02) (nodeA (slot .connecting 0x01 0 0) 1))
      (fun t => decide (t.conn = [slot .connecting 0x01 0 0] ∧ t.out = [.status (.failed .noFreeSlot)])) = true := by decide
/-- V45-1, CONNECTED; CONNECTING. -/
theorem test_cmdDisconnect :
    nextIs (exec (.cmdDisconnect 0x01) (nodeA (slot .connected 0x01 1 2) 5))
      (fun t => decide (t.conn = [slot .disconnecting 0x01 5 0])) = true ∧
    nextIs (exec (.cmdDisconnect 0x01) (nodeA (slot .connecting 0x01 0 0) 5))
      (fun t => decide (t.out = [.status (.failed .notConnected)])) = true := by decide
/-- V45-1, CONNECTED: one frame, no Notify. -/
theorem test_cmdSend :
    nextIs (exec (.cmdSend 0x01 [0x41]) (nodeA (slot .connected 0x01 1 0) 5))
      (fun t => decide (t.conn = [slot .connected 0x01 5 0] ∧ t.out.length = 2 ∧ (txStream t.out).length = 42)) = true := by
  decide
/-- V45-1, CONNECTING: no frame. -/
theorem test_cmdAbort :
    nextIs (exec (.cmdAbort 0x01) (nodeA (slot .connecting 0x01 0 0) 5))
      (fun t => decide (t.out = [.notify 0 0x01 .connecting .disconnected, .status .ok])) = true := by decide
/-- V45-15: Deliver before Emit. -/
theorem test_rxData :
    nextIs (exec (.rxData 0 (rx 0x01 [0x68, 0x69])) (node { Config.cfgA with ackOnData := true } 0x01
      [slot .connected 0x10 2 0] 6))
      (fun t => decide (t.conn = [slot .connected 0x10 6 0] ∧ t.out.head? = some (.deliver 0x10 [0x68, 0x69]) ∧
        t.out.length = 2)) = true := by decide
/-- V44-23; V45-2: ignored where the slot is in use. -/
theorem test_rxLink :
    nextIs (exec (.rxLink 0 (rx 0x02 [])) (nodeB (slot .disconnected 0x10 0 3) 1))
      (fun t => decide (t.conn = [slot .connected 0x10 1 0])) = true ∧
    nextIs (exec (.rxLink 0 (toA 0x02)) (nodeA (slot .connecting 0x01 0 0) 7)) (fun t => decide (t.out = [])) = true := by decide
/-- V45-2, CONNECTED. -/
theorem test_rxUnlink :
    nextIs (exec (.rxUnlink 0 (toA 0x03)) (nodeA (slot .connected 0x01 1 0) 7))
      (fun t => decide (t.conn = [slot .disconnected 0x01 1 0] ∧
        t.out.getLast? = some (.notify 0 0x01 .connected .disconnected) ∧ (txStream t.out).length = 36)) = true := by decide
/-- V45-2, CONNECTED: `last_activity` stays; DISCONNECTING. -/
theorem test_rxAck :
    nextIs (exec (.rxAck 0 (toA 0x04)) (nodeA (slot .connected 0x01 1 0) 7))
      (fun t => decide (t = nodeA (slot .connected 0x01 1 0) 7)) = true ∧
    nextIs (exec (.rxAck 0 (toA 0x04)) (nodeA (slot .disconnecting 0x01 2 0) 7))
      (fun t => decide (t.out = [.notify 0 0x01 .disconnecting .disconnected])) = true := by decide
/-- V45-2, CONNECTED, TYPE 05 and 09. -/
theorem test_ignored_types :
    nextIs (exec (.rxRetryRequest 0 (toA 0x05)) (nodeA (slot .connected 0x01 1 0) 7))
      (fun t => decide (t = nodeA (slot .connected 0x01 1 0) 7)) = true ∧
    nextIs (exec (.rxReserved 0 (toA 0x09)) (nodeA (slot .connected 0x01 1 0) 7))
      (fun t => decide (t = nodeA (slot .connected 0x01 1 0) 7)) = true := by decide
/-- V45-4 at 13: slot 1 is due, slot 0 is not. -/
theorem test_tick_slots :
    nextIs (exec .tick (node { Config.cfgA with nConn := 2 } 0x10 [slot .connecting 0x01 10 1, slot .connecting 0x02 3 0] 13))
      (fun t => decide (t.conn = [slot .connecting 0x01 10 1, slot .connecting 0x02 13 1])) = true := by decide
/-- V45-10 at 149 and 150. -/
theorem test_tick_idle :
    nextIs (exec .tick (nodeA (slot .connected 0x01 50 0) 149)) (fun t => decide (t.out = [])) = true ∧
    nextIs (exec .tick (nodeA (slot .connected 0x01 50 0) 150))
      (fun t => decide (t.out = [.notify 0 0x01 .connected .disconnected])) = true := by decide
/-- P3 at 30 and 40. -/
theorem test_retry :
    nextIs (exec (.retry 0) (nodeA (slot .connecting 0x01 20 2) 30))
      (fun t => decide (t.conn = [slot .connecting 0x01 30 3] ∧ (txStream t.out).length = 36)) = true := by decide
theorem test_giveUp :
    nextIs (exec (.giveUp 0) (nodeA (slot .connecting 0x01 30 3) 40))
      (fun t => decide (t.out = [.notify 0 0x01 .connecting .disconnected])) = true := by decide
/-- P7 at 111. -/
theorem test_idleDrop :
    nextIs (exec (.idleDrop 0) (nodeA (slot .connected 0x01 11 1) 111))
      (fun t => decide (t.out = [.notify 0 0x01 .connected .disconnected])) = true := by decide
/-- V70-1. -/
theorem test_reset_event :
    nextIs (step { holding (nodeA (slot .connected 0x01 1 0) 9) [0x02, 0x01, 0x10, 0x02, 0x00] with
        bmHaveUpper := true, inputs := [⟨9, .rst 0x22⟩] })
      (fun t => decide (t.bmPos = .scan ∧ t.bmHaveUpper = false ∧ t.faCount = 0 ∧ t.localAddr = 0x22 ∧ t.out = [] ∧
        (t.conn.map (·.state)) = [.disconnected])) = true := by decide

/-! ### Witnesses: states and operands that meet the hypotheses of a statement, each of its clauses -/

/-- 255 bytes: the longest payload. -/
def fullPayload : List Byte := List.replicate 255 0

/-- Both slots in use, for 0x01 and 0x02. -/
def twoSlots : State :=
  node { Config.cfgA with nConn := 2 } 0x10 [slot .connected 0x01 1 0, slot .connecting 0x02 3 3] 13

/-- A state with an event of each kind can be given one word. -/
def commandPending : State := presenting State.reset ⟨.cmd, 0, [0x00, 0x81]⟩

theorem witness_HencFollowsParityEquations :
    (State.reset.cfg.nibbleBitOrder = .lsbFirst → true = (0xB : Nibble).getLsbD 0 ∧ true = (0xB : Nibble).getLsbD 1 ∧
      false = (0xB : Nibble).getLsbD 2 ∧ true = (0xB : Nibble).getLsbD 3) ∧
    (State.reset.cfg.nibbleBitOrder = .msbFirst → true = (0xB : Nibble).getLsbD 3 ∧ true = (0xB : Nibble).getLsbD 2 ∧
      false = (0xB : Nibble).getLsbD 1 ∧ true = (0xB : Nibble).getLsbD 0) := by decide

/-- A value at distance 1 from a codeword; a value at distance 0. -/
theorem witness_HammingCorrectsOneFlip :
    distance 0x01 (hencOp .lsbFirst 0x0) = 1 ∧ distance 0x55 (hencOp .lsbFirst 0xB) = 0 := by decide

theorem witness_HencIsALinearDistanceThreeCode : (0x0 : Nibble) ≠ 0x1 := by decide

theorem witness_BmEncGivesTwoUnitsPerByte : 0 < ([0x68] : List Byte).length := by decide

/-- SCAN with MARKER and with another byte. -/
theorem witness_DeframerScansForMarker :
    State.reset.bmPos = .scan ∧ (0xFF : Byte) = State.reset.cfg.marker ∧ (0xFE : Byte) ≠ State.reset.cfg.marker := by decide

theorem witness_DeframerTakesCodewordByte : ({ State.reset with bmPos := .cw } : State).bmPos = .cw := by decide

/-- END with another byte, with MARKER and no nibble, with MARKER and a nibble. -/
theorem witness_DeframerClosesUnit :
    ({ State.reset with bmPos := .close } : State).bmPos = .close ∧ (0xFE : Byte) ≠ State.reset.cfg.marker ∧
    (0xFF : Byte) = State.reset.cfg.marker ∧ ({ State.reset with bmPos := .close } : State).bmHaveUpper = false ∧
    ({ State.reset with bmPos := .close, bmHaveUpper := true } : State).bmPos = .close ∧
    ({ State.reset with bmPos := .close, bmHaveUpper := true } : State).bmHaveUpper = true := by decide

/-- Both policies; a timeout has a next state. -/
theorem witness_DeframerReadTimeout :
    State.reset.cfg.bmTimeoutPolicy = .reset ∧
    (State.resetWith { Config.cfgA with bmTimeoutPolicy := .retain } 0x10).cfg.bmTimeoutPolicy = .retain ∧
    nextIs (exec .bmRxTimeout State.reset) (fun _ => true) = true := by decide

theorem witness_FramedByteSurvivesOneFlipPerCodeword :
    State.reset.bmPos = .scan ∧ State.reset.bmHaveUpper = false := by decide

theorem witness_FramedBytesArePushedInOrder : State.reset.bmPos = .scan ∧ State.reset.bmHaveUpper = false := by decide

/-- V42-17. -/
theorem witness_LateStartDecodesNothing :
    State.reset.bmPos = .scan ∧ ([0x68, 0x69] : List Byte) ≠ [] ∧
    ∀ b ∈ ([0x68, 0x69] : List Byte), cwb State.reset.cfg.nibbleBitOrder (upperNibble b) ≠ State.reset.cfg.marker ∧
      cwb State.reset.cfg.nibbleBitOrder (lowerNibble b) ≠ State.reset.cfg.marker := by decide

/-- Payloads of 0 and of 255 bytes. -/
theorem witness_SerializeLayout : ([] : List Byte).length ≤ 255 ∧ fullPayload.length ≤ 255 := by decide +kernel

/-- 5 bytes; 6 with a bad START, with a bad STOP; 6 declared 7; 6 declared 6. -/
theorem witness_DeserializeTestsInOrder :
    ([0x02, 0x01, 0x10, 0x02, 0x00] : List Byte).length < 6 ∧
    6 ≤ ([0x00, 0x01, 0x10, 0x02, 0x00, 0x03] : List Byte).length ∧
    ([0x00, 0x01, 0x10, 0x02, 0x00, 0x03] : List Byte)[0]? ≠ some State.reset.cfg.start ∧
    ([0x02, 0x01, 0x10, 0x02, 0x00, 0x00] : List Byte)[5]? ≠ some State.reset.cfg.stop ∧
    ([0x02, 0x01, 0x10, 0x02, 0x01, 0x03] : List Byte)[0]? = some State.reset.cfg.start ∧
    ([0x02, 0x01, 0x10, 0x02, 0x01, 0x03] : List Byte)[5]? = some State.reset.cfg.stop ∧
    ([0x02, 0x01, 0x10, 0x02, 0x01, 0x03] : List Byte)[4]? = some 1 ∧ 6 ≠ (1 : Byte).toNat + 6 ∧
    ([0x02, 0x01, 0x10, 0x02, 0x00, 0x03] : List Byte)[4]? = some 0 ∧ 6 = (0 : Byte).toNat + 6 := by decide

theorem witness_DeserializeInvertsSerialize :
    Frame.valid ⟨0x01, 0x10, .data, fullPayload⟩ = true ∧ Frame.valid ⟨0x7F, 0x00, .ack, []⟩ = true := by decide +kernel

/-- Nothing buffered; five bytes, the sixth not the last of LENGTH + 6 = 7; five bytes, the sixth the last; 260 bytes. -/
theorem witness_FaPushBuffersOrJudges :
    State.reset.buffered = some [] ∧
    (holding State.reset [2, 1, 16, 2, 1]).buffered = some [2, 1, 16, 2, 1] ∧ 5 + 1 < (1 : Byte).toNat + 6 ∧
    (holding State.reset [2, 1, 16, 2, 0]).buffered = some [2, 1, 16, 2, 0] ∧ (0 : Byte).toNat + 6 ≤ 5 + 1 ∧
    (holding State.reset (2 :: 1 :: 16 :: 2 :: 0xFF :: fullPayload)).buffered =
      some (2 :: 1 :: 16 :: 2 :: 0xFF :: fullPayload) ∧
    (2 :: 1 :: 16 :: 2 :: 0xFF :: fullPayload : List Byte).length = 260 := by decide +kernel

/-- A buffer of five bytes that is not complete. -/
theorem witness_FaPushReportsOnlyInvalidDelimiters : BufferOk (holding State.reset [2, 1, 16, 2, 0]) :=
  ⟨by decide, by decide, by decide, by
    intro len _ h
    have h0 : bufRead (holding State.reset [2, 1, 16, 2, 0]).faBuf 4 = some 0 := by decide
    rw [h0] at h
    cases h
    decide⟩

theorem witness_FrameArrivesAtAcceptUnchanged :
    Frame.valid ⟨0x01, 0x10, .data, fullPayload⟩ = true ∧ State.reset.bmPos = .scan ∧
    State.reset.bmHaveUpper = false ∧ State.reset.faCount = 0 := by decide +kernel

theorem witness_AcceptComparesReceiver :
    0x80 ≤ (rx 2 []).receiver8.toNat ∨ 0x80 ≤ (⟨0x80, 0x10, 2, []⟩ : RxFrame).receiver8.toNat := by decide

theorem one_slot_single (c : Slot) : OneSlotPerPeer [c] := by
  intro i j a b ha hb _ _ _
  have hi := (List.getElem?_eq_some_iff.1 ha).1
  have hj := (List.getElem?_eq_some_iff.1 hb).1
  simp only [List.length_singleton] at hi hj
  omega

/-- A table with the peer, and one without. -/
theorem witness_FindAndFreeNameTheSlots :
    OneSlotPerPeer (nodeA (slot .connected 0x01 1 0) 5).conn ∧
    (nodeA (slot .connected 0x01 1 0) 5).find 0x01 = some 0 ∧
    (nodeA (slot .connected 0x01 1 0) 5).conn[0]? = some (slot .connected 0x01 1 0) ∧
    (nodeA (slot .connected 0x01 1 0) 5).find 0x02 = none :=
  ⟨one_slot_single _, by decide, by decide, by decide⟩

/-- Sender 0x80; broadcast; a known peer; an unknown one with DATA; with LINK and a full table; with LINK and a free slot. -/
theorem witness_RouteDropsOrHandsOver :
    0x80 ≤ (⟨0x01, 0x80, 2, []⟩ : RxFrame).sender8.toNat ∧
    (⟨0x7F, 0x10, 2, []⟩ : RxFrame).receiver8 ≠ (nodeB Slot.reset 1).localAddr.setWidth 8 ∧
    (rx 2 []).sender8.toNat < 0x80 ∧ (rx 2 []).receiver8 = (nodeB Slot.reset 1).localAddr.setWidth 8 ∧
    (nodeB (slot .connected 0x10 1 0) 1).find ((rx 2 []).sender8.setWidth 7) = some 0 ∧
    (nodeB Slot.reset 1).find ((rx 1 []).sender8.setWidth 7) = none ∧ (rx 1 []).type8 ≠ 0x02 ∧
    (nodeB (slot .connected 0x22 1 0) 1).find ((rx 2 []).sender8.setWidth 7) = none ∧ (rx 2 []).type8 = 0x02 ∧
    (nodeB (slot .connected 0x22 1 0) 1).free = none ∧
    (nodeB Slot.reset 1).free = some 0 ∧ (nodeB Slot.reset 1).conn[0]? = some Slot.reset := by decide

theorem witness_RouteFollowsInboundMatrix :
    (rx 2 []).sender8.toNat < 0x80 ∧ (rx 2 []).receiver8 = (nodeB Slot.reset 1).localAddr.setWidth 8 ∧
    (nodeB (slot .connected 0x10 1 0) 1).find ((rx 2 []).sender8.setWidth 7) = some 0 ∧
    (nodeB (slot .connected 0x10 1 0) 1).conn[0]? = some (slot .connected 0x10 1 0) ∧
    (nodeB Slot.reset 1).find ((rx 2 []).sender8.setWidth 7) = none ∧ (nodeB Slot.reset 1).free = some 0 ∧
    (rx 2 []).type8 = 0x02 := by decide

/-- TYPE 0x01 to 0x05, 0x00, 0x06, 0xFF of a considered frame; a frame of another sender; one for another receiver. -/
theorem witness_ConnRxRunsTheHandlerOfTheType :
    (nodeA (slot .connected 0x01 1 0) 7).conn[0]? = some (slot .connected 0x01 1 0) ∧
    (toA 1).sender8 = (slot .connected 0x01 1 0).remote.setWidth 8 ∧
    (toA 1).receiver8 = (nodeA (slot .connected 0x01 1 0) 7).localAddr.setWidth 8 ∧
    (toA 1).type8 = 0x01 ∧ (toA 2).type8 = 0x02 ∧ (toA 3).type8 = 0x03 ∧ (toA 4).type8 = 0x04 ∧ (toA 5).type8 = 0x05 ∧
    (toA 0).type8.toNat = 0 ∧ 6 ≤ (toA 6).type8.toNat ∧ 6 ≤ (toA 0xFF).type8.toNat ∧
    (⟨0x10, 0x81, 1, []⟩ : RxFrame).sender8 ≠ (slot .connected 0x01 1 0).remote.setWidth 8 ∧
    (⟨0x7F, 0x01, 1, []⟩ : RxFrame).receiver8 ≠ (nodeA (slot .connected 0x01 1 0) 7).localAddr.setWidth 8 := by decide

theorem witness_ConnRxFollowsInboundMatrix :
    (nodeA (slot .connecting 0x01 0 0) 7).conn[0]? = some (slot .connecting 0x01 0 0) ∧
    (toA 4).sender8 = (slot .connecting 0x01 0 0).remote.setWidth 8 ∧
    (toA 4).receiver8 = (nodeA (slot .connecting 0x01 0 0) 7).localAddr.setWidth 8 := by decide

/-- A slot in each of the four states, for the handlers, RETRY, GIVE_UP and IDLE_DROP. -/
theorem witness_handlers (st : ConnState) :
    (nodeA (slot st 0x01 0 0) 7).conn[0]? = some (slot st 0x01 0 0) ∧ (slot st 0x01 0 0).state = st := ⟨rfl, rfl⟩

theorem witness_RxLinkOpensADisconnectedSlot :
    (nodeA (slot .disconnected 0x01 0 0) 7).conn[0]? = some (slot .disconnected 0x01 0 0) ∧
    (slot .connected 0x01 0 0).state ≠ .disconnected := by decide

theorem witness_RxAckCompletesAHandshake :
    (nodeA (slot .connecting 0x01 0 0) 7).conn[0]? = some (slot .connecting 0x01 0 0) ∧
    (slot .connecting 0x01 0 0).state = .connecting ∧ (slot .disconnecting 0x01 0 0).state = .disconnecting ∧
    (slot .connected 0x01 0 0).state = .connected ∧ (slot .disconnected 0x01 0 0).state = .disconnected := by decide

theorem witness_RxUnlinkClosesAConnectedSlot :
    (nodeA (slot .connected 0x01 0 0) 7).conn[0]? = some (slot .connected 0x01 0 0) ∧
    (slot .connected 0x01 0 0).state = .connected ∧ (slot .disconnecting 0x01 0 0).state ≠ .connected := by decide

theorem witness_RxDataDeliversInConnected :
    (nodeA (slot .connected 0x01 0 0) 7).conn[0]? = some (slot .connected 0x01 0 0) ∧
    (slot .connected 0x01 0 0).state = .connected ∧ (nodeA (slot .connected 0x01 0 0) 7).cfg.ackOnData = false ∧
    (node { Config.cfgA with ackOnData := true } 0x10 [slot .connected 0x01 0 0] 7).cfg.ackOnData = true ∧
    (slot .connecting 0x01 0 0).state ≠ .connected := by decide

theorem witness_RetryRequestAndReservedTypesAreIgnored : 0 < State.reset.conn.length := by decide

/-- CONNECTED; CONNECTING; no slot free; a slot free. -/
theorem witness_CmdConnectOpensTheLeastFreeSlot :
    (nodeA (slot .connected 0x01 1 0) 5).find 0x01 = some 0 ∧
    (nodeA (slot .connected 0x01 1 0) 5).conn[0]? = some (slot .connected 0x01 1 0) ∧
    (nodeA (slot .connecting 0x01 0 0) 5).find 0x01 = some 0 ∧
    (nodeA (slot .connecting 0x01 0 0) 5).conn[0]? = some (slot .connecting 0x01 0 0) ∧
    (slot .connecting 0x01 0 0).state ≠ .connected ∧
    (nodeA (slot .connecting 0x01 0 0) 1).find 0x02 = none ∧ (nodeA (slot .connecting 0x01 0 0) 1).free = none ∧
    (nodeA Slot.reset 1).find 0x01 = none ∧ (nodeA Slot.reset 1).free = some 0 := by decide

theorem witness_CmdDisconnectStartsTheTeardown :
    (nodeA (slot .connecting 0x01 0 0) 5).cstate 0x01 ≠ .connected ∧
    (nodeA (slot .connected 0x01 1 0) 5).find 0x01 = some 0 ∧
    (nodeA (slot .connected 0x01 1 0) 5).conn[0]? = some (slot .connected 0x01 1 0) ∧
    (slot .connected 0x01 1 0).state = .connected := by decide

theorem witness_CmdSendEmitsOneDataFrame :
    fullPayload.length ≤ 255 ∧ (nodeA Slot.reset 5).cstate 0x01 ≠ .connected ∧
    (nodeA (slot .connected 0x01 1 0) 5).find 0x01 = some 0 ∧
    (nodeA (slot .connected 0x01 1 0) 5).conn[0]? = some (slot .connected 0x01 1 0) := by decide +kernel

theorem witness_CmdAbortForcesDisconnected :
    (nodeA Slot.reset 5).find 0x01 = none ∧ (nodeA (slot .disconnecting 0x01 2 0) 5).find 0x01 = some 0 ∧
    (nodeA (slot .disconnecting 0x01 2 0) 5).conn[0]? = some (slot .disconnecting 0x01 2 0) := by decide

theorem witness_RejectedCommandChangesNothing :
    (Instr.cmdSend 0x01 [] = .cmdConnect 0x01 ∨ Instr.cmdSend 0x01 [] = .cmdDisconnect 0x01 ∨
      Instr.cmdSend 0x01 [] = .cmdSend 0x01 [] ∨ Instr.cmdSend 0x01 [] = .cmdAbort 0x01) ∧
    nextIs (exec (.cmdSend 0x01 []) State.reset) (fun t => decide (t.out = [.status (.failed .notConnected)])) = true := by
  decide

theorem witness_TickIsIdempotent :
    twoSlots.cfg.valid = true ∧ nextIs (exec .tick twoSlots) (fun _ => true) = true := by decide

/-- The last retry, in both states. -/
theorem witness_RetryReemitsThePendingFrame :
    (nodeA (slot .connecting 0x01 20 2) 30).conn[0]? = some (slot .connecting 0x01 20 2) ∧
    (slot .connecting 0x01 20 2).retryCount.toNat < (nodeA (slot .connecting 0x01 20 2) 30).cfg.maxRetries ∧
    (nodeA (slot .disconnecting 0x01 20 0) 30).conn[0]? = some (slot .disconnecting 0x01 20 0) ∧
    (slot .disconnecting 0x01 20 0).retryCount.toNat < (nodeA (slot .disconnecting 0x01 20 0) 30).cfg.maxRetries := by decide

theorem witness_GiveUpAndIdleDropOnlyDisconnect :
    (nodeA (slot .connected 0x01 0 0) 7).conn[0]? = some (slot .connected 0x01 0 0) ∧
    (slot .connected 0x01 0 0).state ≠ .disconnected ∧
    (nodeA (slot .disconnected 0x01 0 0) 7).conn[0]? = some (slot .disconnected 0x01 0 0) := by decide

/-- P3's ticks at which the frame is due: three, and a fourth. -/
theorem witness_RetryBudgetIsSpentOneDueTickAtATime :
    (nodeA (slot .connecting 0x01 0 0) 0).cfg.maxRetries ≤ 255 ∧
    (nodeA (slot .connecting 0x01 0 0) 0).conn[0]? = some (slot .connecting 0x01 0 0) ∧
    (slot .connecting 0x01 0 0).state = .connecting ∧ (slot .disconnecting 0x01 0 0).state = .disconnecting ∧
    (slot .connecting 0x01 0 0).retryCount = 0 ∧ (slot .connecting 0x01 0 0).lastActivity = 0 % 2 ^ Config.cfgA.tsW ∧
    RetryTimes Config.cfgA 0 [10, 20, 30] ∧ RetryTimes Config.cfgA 0 [10, 20, 30, 40] ∧
    [10, 20, 30].length ≤ Config.cfgA.maxRetries ∧ [10, 20, 30, 40].length = Config.cfgA.maxRetries + 1 ∧
    [10, 20, 30, 40] = [10, 20] ++ 30 :: [40] ∧ [10, 20].length < Config.cfgA.maxRetries ∧
    [10, 20, 30, 40] = [10, 20, 30] ++ 40 :: [] ∧ [10, 20, 30].length = Config.cfgA.maxRetries := by
  refine ⟨by decide, by decide, by decide, by decide, by decide, by decide, ?_, ?_, by decide, by decide, by decide,
    by decide, by decide, by decide⟩
  · exact ⟨by decide, by decide, by decide, by decide, by decide, by decide, trivial⟩
  · exact ⟨by decide, by decide, by decide, by decide, by decide, by decide, by decide, by decide, trivial⟩

/-- The invariants of a state with one slot, an empty buffer, and agents' events. -/
theorem inv_single (c : Slot) (t : Nat) (es : List Event) (hr : c.retryCount.toNat ≤ 3) (hs : c.lastActivity < 2 ^ 16)
    (he : es.all (fun e => e.input.agentEvent) = true) : Inv { nodeA c t with inputs := es } := by
  have hcfg : State.reset.configOk = true := by decide
  refine ⟨hcfg, ⟨rfl, Nat.zero_le _, ?_, ?_⟩, ⟨rfl, one_slot_single c, ?_, ?_⟩, he⟩
  · intro k hk
    exact absurd hk (Nat.not_lt_zero k)
  · intro len h5 _
    exact absurd h5 (by show ¬ 5 ≤ 0; decide)
  · intro d hd
    rw [List.mem_singleton.1 hd]
    exact hr
  · intro d hd
    rw [List.mem_singleton.1 hd]
    exact hs

/-- With `MAX_RETRIES` = 3: four ticks at each of which the pending connection is due. -/
theorem witness_DueTicksBringEverySlotDown :
    Inv (nodeA (slot .connecting 0x01 0 0) 0) ∧
    [10, 20, 30, 40].length = (nodeA (slot .connecting 0x01 0 0) 0).cfg.maxRetries + 1 ∧
    DueRun [10, 20, 30, 40] (nodeA (slot .connecting 0x01 0 0) 0) := by
  refine ⟨inv_single (slot .connecting 0x01 0 0) 0 [] (by decide) (by decide) rfl, rfl, ?_⟩
  have due : ∀ (s : State) (c : Slot) (t : Nat), s.conn = [c] → s.cfg = Config.cfgA → c.state = .connecting →
      10 ≤ elapsed 16 (t % 2 ^ 16) c.lastActivity → ∀ d ∈ s.conn, d.due s.cfg t := by
    intro s c t h hcfg hst he d hm
    rw [h, List.mem_singleton] at hm
    rw [hm, hcfg]
    simp only [Slot.due, hst]
    exact he
  refine ⟨due _ (slot .connecting 0x01 0 0) _ rfl rfl rfl (by decide), ?_⟩
  rintro s1 ⟨⟩
  refine ⟨due _ (slot .connecting 0x01 10 1) _ rfl rfl rfl (by decide), ?_⟩
  rintro s2 ⟨⟩
  refine ⟨due _ (slot .connecting 0x01 20 2) _ rfl rfl rfl (by decide), ?_⟩
  rintro s3 ⟨⟩
  exact ⟨due _ (slot .connecting 0x01 30 3) _ rfl rfl rfl (by decide), fun _ _ => trivial⟩

/-- Fifteen ticks across the wrap of a four-bit timestamp. -/
theorem witness_ElapsedIsRealTime : 14 ≤ 29 ∧ 29 - 14 < 2 ^ 4 := by decide

/-- A command that opens a slot, and a TICK that gives one up: agents' events with a next state and a transition. -/
theorem witness_NotifyMirrorsEveryTransition :
    (Instr.cmdConnect 0x01).agentEvent = true ∧ Instr.tick.agentEvent = true ∧
    nextIs (exec (.cmdConnect 0x01) State.reset) (fun t => decide (t.out.length = 3 ∧ t.conn.length = 1)) = true ∧
    nextIs (exec .tick (nodeA (slot .connecting 0x01 0 3) 10)) (fun t => decide (t.out.length = 1)) = true := by decide

/-- A TICK that emits a frame. -/
theorem witness_EmittedFramesComeFromThisNode :
    Instr.tick.agentEvent = true ∧
    nextIs (exec .tick (nodeA (slot .connecting 0x01 0 0) 10)) (fun t => decide ((txStream t.out).length = 36)) = true := by
  decide

theorem witness_EverySlotChangeIsARowOfTheMatrix :
    (Instr.cmdConnect 0x01).agentEvent = true ∧ nextIs (exec (.cmdConnect 0x01) State.reset) (fun _ => true) = true ∧
    State.reset.conn[0]? = some Slot.reset := by decide

/-- P1: node B before the 36th wire byte of A's LINK. -/
def linkPending : State :=
  { holding (nodeB Slot.reset 1) [0x02, 0x01, 0x10, 0x02, 0x00] with
    bmPos := .close, bmCw := 0x1E, bmHaveUpper := true, bmUpper := 0 }

/-- P1: the 36th wire byte completes a LINK from 0x10, and a frame of this kind is what an inbound row asks for. -/
theorem test_inboundFrom : InboundFrom linkPending (.bmRxByte 0xFF) 0x10 0x02 :=
  ⟨0xFF, rx 0x02 [], rfl, ⟨rfl, rfl, rfl, ⟨[0x02, 0x01, 0x10, 0x02, 0x00], by decide, by decide⟩, rfl⟩, rfl, rfl⟩

/-- A DATA frame's last byte delivers. -/
theorem witness_DeliverOnlyInConnected :
    (Instr.bmRxByte 0xFF).agentEvent = true ∧
    nextIs (exec (.bmRxByte 0xFF) { holding (nodeB (slot .connected 0x10 1 0) 6) [0x02, 0x01, 0x10, 0x01, 0x00] with
      bmPos := .close, bmCw := 0x1E, bmHaveUpper := true, bmUpper := 0 })
      (fun t => decide (t.out = [.deliver 0x10 []])) = true := by decide

theorem witness_ResetLeavesTheStatedValues :
    ({ State.reset with inputs := [⟨9, .rst 0x22⟩] } : State).configOk = true ∧ State.reset.time ≤ 9 ∧
    (0x22 : Addr) ≠ 0x7F := by decide

theorem witness_InvariantsHoldAfterReset : Config.cfgA.valid = true ∧ (0x10 : Addr) ≠ 0x7F := by decide

theorem witness_EveryStepKeepsTheInvariants :
    Inv { nodeA Slot.reset 0 with inputs := [⟨0, .word ⟨.cmd, 0, [0x00, 0x81]⟩⟩] } ∧
    nextIs (step { nodeA Slot.reset 0 with inputs := [⟨0, .word ⟨.cmd, 0, [0x00, 0x81]⟩⟩] })
      (fun t => decide (t.conn = [slot .connecting 0x01 0 0])) = true :=
  ⟨inv_single Slot.reset 0 _ (by decide) (by decide) rfl, by decide⟩

theorem witness_EveryEventIsAnswered :
    Inv { nodeA Slot.reset 0 with inputs := [⟨0, .word ⟨.cmd, 0, [0x00, 0x81]⟩⟩] } ∧
    decode Config.cfgA ⟨.cmd, 0, [0x00, 0x81]⟩ = .instr (.cmdConnect 0x01) :=
  ⟨inv_single Slot.reset 0 _ (by decide) (by decide) rfl, by decide⟩

theorem witness_ConfigurationAndAddressAreConstant :
    nextIs (step State.reset) (fun _ => true) = true ∧
    nextIs (step { State.reset with inputs := [⟨0, .rst 0x22⟩] }) (fun t => decide (t.localAddr = 0x22)) = true := by decide

/-- Two states that differ in `bm_cw`, in `bm_upper`, above `fa_count` and in the elements of a DISCONNECTED slot. -/
theorem witness_MeaninglessFieldsDoNotMatter :
    SameMeaning commandPending
      { commandPending with bmCw := 0xAA, bmUpper := 0x5, faBuf := [(0, 7)], conn := [slot .disconnected 0x33 9 2] } ∧
    commandPending.agentEventsOnly = true := by
  refine ⟨⟨rfl, rfl, rfl, fun h => absurd h (by decide), rfl, fun h => absurd h (by decide), rfl, ?_, rfl, ?_, rfl, rfl,
    rfl, rfl⟩, by decide⟩
  · intro k hk
    exact absurd hk (Nat.not_lt_zero k)
  · intro i c d hc hd
    have hi := (List.getElem?_eq_some_iff.1 hd).1
    obtain rfl : i = 0 := by simp only [List.length_singleton] at hi; omega
    have h0 : commandPending.conn[0]? = some Slot.reset := by decide
    rw [h0] at hc
    cases hc
    cases hd
    exact ⟨rfl, fun h => absurd rfl h, fun h => by rcases h with h | h <;> cases h⟩

theorem witness_StepRunsTheDecodedOperation :
    commandPending.configOk = true ∧ commandPending.inputs = [⟨0, .word ⟨.cmd, 0, [0x00, 0x81]⟩⟩] ∧
    decode commandPending.cfg ⟨.cmd, 0, [0x00, 0x81]⟩ = .instr (.cmdConnect 0x01) ∧
    (Instr.cmdConnect 0x01).wellFormed commandPending.cfg = true := by decide

/-- A configuration R7 excludes; address 0x7F; no event; an event that is late; `rst` with 0x7F; no event on a port; a word
that is no operation. -/
theorem witness_StepOutsideAnOperation :
    (State.resetWith { Config.cfgA with nConn := 0 } 0x10).cfg.valid = false ∧
    (State.resetWith Config.cfgA 0x7F).localAddr = 0x7F ∧ State.reset.configOk = true ∧ State.reset.inputs = [] ∧
    ({ State.reset with time := 5, inputs := [⟨4, .rst 0x22⟩] } : State).configOk = true ∧ 4 < 5 ∧
    refusalIs (step { State.reset with time := 5, inputs := [⟨4, .rst 0x22⟩] }) .timeWentBack = true ∧
    refusalIs (step { State.reset with inputs := [⟨0, .rst 0x7F⟩] }) .badConfiguration = true ∧
    decode State.reset.cfg ⟨.tick, 0, [0]⟩ = .noEvent ∧
    decode State.reset.cfg ⟨.cmd, 0, [0x00, 0x01]⟩ = .reject .reservedCommand := by decide

/-- `fa_count` 261; 5 and 260 with nothing written; slot 1 of one; RETRY in CONNECTED and with the count at the maximum. -/
theorem witness_InternalStepsOutsideTheirDomain :
    261 ≤ ({ State.reset with faCount := 261 } : State).faCount.toNat ∧
    5 ≤ ({ State.reset with faCount := 5 } : State).faCount.toNat ∧
    ({ State.reset with faCount := 260 } : State).faCount.toNat < 261 ∧ bufRead State.reset.faBuf 4 = none ∧
    faultIs (exec (.faPush 0) { State.reset with faCount := 5 }) (.unwrittenByte 4) = true ∧
    State.reset.conn.length ≤ 1 ∧
    (nodeA (slot .connecting 0x01 0 3) 0).conn[0]? = some (slot .connecting 0x01 0 3) ∧
    ¬ (slot .connecting 0x01 0 3).retryCount.toNat < (nodeA (slot .connecting 0x01 0 3) 0).cfg.maxRetries ∧
    (slot .connected 0x01 0 0).state ≠ .connecting ∧ (slot .connected 0x01 0 0).state ≠ .disconnecting := by decide

/-- The longest payload, the last slot, a reserved TYPE. -/
theorem witness_DecodeInvertsEncode :
    Instr.wellFormed Config.cfgA (.cmdSend 0x7F fullPayload) = true ∧
    Instr.wellFormed Config.cfgA (.rxReserved 0 (rx 0xFF [])) = true := by decide +kernel

theorem witness_DecodedOperationsAreWellFormed :
    decode Config.cfgA ⟨.rxFrame, 0, [0x02, 0x01, 0x10, 0x09, 0x00, 0x03]⟩ = .instr (.rxReserved 0 (rx 0x09 [])) := by decide

theorem witness_PortWordsDecodeAsTheSpecPrints : fullPayload.length ≤ 255 := by decide +kernel

end Sys2Proof.Tests
end

/-! The scope family: the step function is total (00_scope.md R15), `elapsed` is real time (R16), and a step runs the
operation its word decodes to. The layers below a step come first: the handlers, FA_PUSH, the deframer, the decoder. -/

namespace Sys2Proof.Machine

/-! ### Time -/

/-- `elapsed` of two sampled tick counts is the real difference modulo the timestamps' range (00_scope.md R16). -/
theorem elapsed_sampled (w : Nat) {t0 t : Nat} (h : t0 ≤ t) :
    elapsed w (t % 2 ^ w) (t0 % 2 ^ w) = (t - t0) % 2 ^ w := by
  obtain ⟨d, rfl⟩ := Nat.exists_eq_add_of_le h
  have hlt : t0 % 2 ^ w < 2 ^ w := Nat.mod_lt _ (Nat.two_pow_pos w)
  have hdiv : 2 ^ w * (t0 / 2 ^ w) + t0 % 2 ^ w = t0 := Nat.div_add_mod t0 (2 ^ w)
  calc elapsed w ((t0 + d) % 2 ^ w) (t0 % 2 ^ w)
      = (t0 + d + (2 ^ w - t0 % 2 ^ w)) % 2 ^ w := by rw [elapsed, Nat.mod_mod, Nat.mod_add_mod]
    _ = (d + 2 ^ w * (t0 / 2 ^ w + 1)) % 2 ^ w := by rw [Nat.mul_add]; congr 1; omega
    _ = (t0 + d - t0) % 2 ^ w := by rw [Nat.add_mul_mod_self_left, Nat.add_sub_cancel_left]

/-! ### The handlers answer on a slot that is there -/

section Handlers

variable {s : State} {i : Nat} {c : Slot}

theorem rxLinkOp_answers (h : s.conn[i]? = some c) : ∃ t, rxLinkOp s i = .next t := by
  unfold rxLinkOp
  rw [h]
  dsimp only
  split <;> exact ⟨_, rfl⟩

theorem rxUnlinkOp_answers (h : s.conn[i]? = some c) : ∃ t, rxUnlinkOp s i = .next t := by
  unfold rxUnlinkOp
  rw [h]
  dsimp only
  split <;> exact ⟨_, rfl⟩

theorem rxAckOp_answers (h : s.conn[i]? = some c) (f : RxFrame) : ∃ t, rxAckOp s i f = .next t := by
  unfold rxAckOp
  rw [h]
  dsimp only
  split <;> exact ⟨_, rfl⟩

theorem rxDataOp_answers (h : s.conn[i]? = some c) (f : RxFrame) : ∃ t, rxDataOp s i f = .next t := by
  unfold rxDataOp
  rw [h]
  dsimp only
  split <;> exact ⟨_, rfl⟩

theorem rxIgnoreOp_answers (h : s.conn[i]? = some c) : ∃ t, rxIgnoreOp s i = .next t :=
  ⟨s, by rw [rxIgnoreOp, h]⟩

/-- CONN_RX stops only where the block has no such slot (45_connection_fsm.md R171). -/
theorem connRxOp_answers (h : s.conn[i]? = some c) (f : RxFrame) : ∃ t, connRxOp s i f = .next t := by
  unfold connRxOp
  rw [h]
  dsimp only
  split
  · split
    · exact rxDataOp_answers h f
    · split
      · exact rxLinkOp_answers h
      · split
        · exact rxUnlinkOp_answers h
        · split
          · exact rxAckOp_answers h f
          · exact rxIgnoreOp_answers h
  · exact ⟨_, rfl⟩

end Handlers

/-! ### The receive path answers -/

/-- ROUTE answers in every state: the slots that `find` and `free` name are there (44_frame_deserializer.md R153). -/
theorem routeOp_answers (s : State) (f : RxFrame) : ∃ t, routeOp s f = .next t := by
  unfold routeOp
  split
  · exact ⟨_, rfl⟩
  · split
    · exact ⟨_, rfl⟩
    · split
      · next i hi =>
        obtain ⟨c, hc, -, -⟩ := State.find_eq_some hi
        exact connRxOp_answers hc f
      · split
        · split
          · next j hj =>
            obtain ⟨c, hc, -⟩ := State.free_eq_some hj
            exact connRxOp_answers (modify_get_same hc _) f
          · exact ⟨_, rfl⟩
        · exact ⟨_, rfl⟩

theorem frameDone_answers (s : State) (r : Deserialized) : ∃ t, frameDone s r = .next t := by
  unfold frameDone
  split
  · split
    · exact routeOp_answers s _
    · exact ⟨_, rfl⟩
  · exact ⟨_, rfl⟩

/-- The buffer's invariants are about `fa_buf` and `fa_count` alone. -/
theorem BufferOk.of_buffer_eq {s t : State} (h : BufferOk s) (hbuf : t.faBuf = s.faBuf) (hcount : t.faCount = s.faCount) :
    BufferOk t :=
  ⟨by rw [hbuf]; exact h.canonical, by rw [hcount]; exact h.count_le, by rw [hbuf, hcount]; exact h.written,
    by rw [hbuf, hcount]; exact h.unfinished⟩

/-- After FA_PUSH's store every byte of the buffer up to the new one is written. -/
theorem BufferOk.written_bufInsert {s : State} (h : BufferOk s) (d : Byte) {k : Nat} (hk : k ≤ s.faCount.toNat) :
    (bufRead (bufInsert s.faBuf s.faCount.toNat d) k).isSome := by
  rcases Nat.eq_or_lt_of_le hk with rfl | hlt
  · rw [bufRead_bufInsert_same, Option.isSome_some]
  · rw [bufRead_bufInsert_other _ _ (Nat.ne_of_lt hlt)]
    exact h.written k hlt

/-- I-3 leaves `fa_count` room to count one byte more. -/
theorem BufferOk.count_succ {s : State} (h : BufferOk s) : (s.faCount + 1).toNat = s.faCount.toNat + 1 := by
  have := h.count_le
  bv_omega

/-- FA_PUSH answers when the buffer is as between operations: the byte has a place, and LENGTH and the completed buffer
are read where bytes are written (10_state.md R40). -/
theorem faPushOp_answers {s : State} (h : BufferOk s) (d : Byte) : ∃ t, faPushOp s d = .next t := by
  have hroom : s.faCount.toNat < frameMax := Nat.lt_succ_of_le h.count_le
  unfold faPushOp
  rw [memWrite_of_lt _ _ hroom]
  dsimp only
  rw [h.count_succ]
  split
  · next h5 =>
    obtain ⟨len, hlen⟩ := Option.isSome_iff_exists.1 (h.written_bufInsert d (k := 4) (by omega))
    rw [hlen]
    dsimp only
    split
    · obtain ⟨bytes, hbytes⟩ := memRead_isSome (bufInsert s.faBuf s.faCount.toNat d) 0 (s.faCount.toNat + 1)
        (fun k hk => h.written_bufInsert d (by omega))
      rw [hbytes]
      exact frameDone_answers _ _
    · exact ⟨_, rfl⟩
  · exact ⟨_, rfl⟩

/-- The deframer answers every byte in every position (42_byte_marker_codec.md R126). -/
theorem bmRxByteOp_answers {s : State} (h : BufferOk s) (b : Byte) : ∃ t, bmRxByteOp s b = .next t := by
  unfold bmRxByteOp
  split
  · unfold bmScan
    split <;> exact ⟨_, rfl⟩
  · exact ⟨_, rfl⟩
  · unfold bmClose
    split
    · dsimp only
      split
      · apply faPushOp_answers
        exact h.of_buffer_eq rfl rfl
      · exact ⟨_, rfl⟩
    · exact ⟨_, rfl⟩

/-! ### The agents' events answer -/

theorem execBmRxTimeout_answers (s : State) : ∃ t, execBmRxTimeout s = .next t := by
  unfold execBmRxTimeout
  split <;> exact ⟨_, rfl⟩

theorem execCmdConnect_answers (r : Addr) (s : State) : ∃ t, execCmdConnect r s = .next t := by
  unfold execCmdConnect
  split
  · split <;> exact ⟨_, rfl⟩
  · split <;> exact ⟨_, rfl⟩

theorem execCmdDisconnect_answers (r : Addr) (s : State) : ∃ t, execCmdDisconnect r s = .next t := by
  unfold execCmdDisconnect
  split
  · exact ⟨_, rfl⟩
  · split <;> exact ⟨_, rfl⟩

theorem execCmdSend_answers (r : Addr) (payload : List Byte) (s : State) :
    ∃ t, execCmdSend r payload s = .next t := by
  unfold execCmdSend
  split
  · exact ⟨_, rfl⟩
  · split <;> exact ⟨_, rfl⟩

theorem execCmdAbort_answers (r : Addr) (s : State) : ∃ t, execCmdAbort r s = .next t := by
  unfold execCmdAbort
  split <;> exact ⟨_, rfl⟩

/-- Each of the seven events of 00_scope.md R14 has a next state; of the invariants only the buffer's are needed. -/
theorem exec_agentEvent_answers {op : Instr} {s : State} (ha : op.agentEvent = true) (h : BufferOk s) :
    ∃ t, exec op s = .next t := by
  cases op with
  | bmRxByte b => exact bmRxByteOp_answers h b
  | bmRxTimeout => exact execBmRxTimeout_answers s
  | cmdConnect r => exact execCmdConnect_answers r s
  | cmdDisconnect r => exact execCmdDisconnect_answers r s
  | cmdSend r payload => exact execCmdSend_answers r payload s
  | cmdAbort r => exact execCmdAbort_answers r s
  | tick => exact ⟨_, rfl⟩
  | _ => cases ha

/-! ### The agents' ports carry only the agents' events -/

theorem decodeRxp_agentEvent {bits : List Byte} {op : Instr} (h : decodeRxp bits = .instr op) :
    op.agentEvent = true := by
  unfold decodeRxp at h
  split at h
  · split at h
    · cases h
    · split at h
      · cases h; rfl
      · split at h <;> cases h
        rfl
  · cases h

theorem decodeSend_agentEvent {r : Addr} {bits : List Byte} {op : Instr} (h : decodeSend r bits = .instr op) :
    op.agentEvent = true := by
  unfold decodeSend at h
  split at h
  · cases h
  · split at h <;> cases h
    rfl

theorem decodeCmd_agentEvent {bits : List Byte} {op : Instr} (h : decodeCmd bits = .instr op) :
    op.agentEvent = true := by
  unfold decodeCmd at h
  split at h
  · split at h
    · cases h
    · split at h
      · cases h; rfl
      · cases h; rfl
      · exact decodeSend_agentEvent h
      · cases h; rfl
      · cases h
  · cases h

theorem decodeTick_agentEvent {bits : List Byte} {op : Instr} (h : decodeTick bits = .instr op) :
    op.agentEvent = true := by
  unfold decodeTick at h
  split at h
  · split at h
    · cases h; rfl
    · split at h <;> cases h
  · cases h

/-- A word on the receive, command or timer port decodes to one of the seven events only. -/
theorem decode_agentEvent {cfg : Config} {p : Presented} {op : Instr} (hp : (Input.word p).agentEvent = true)
    (h : decode cfg p = .instr op) : op.agentEvent = true := by
  obtain ⟨port, slot, bits⟩ := p
  cases port with
  | rxp => exact decodeRxp_agentEvent h
  | cmd => exact decodeCmd_agentEvent h
  | tick => exact decodeTick_agentEvent h
  | _ => cases hp

/-! ### The step -/

/-- Taking a word that decodes to an operation runs the operation. -/
theorem takeInput_instr {s : State} {p : Presented} {op : Instr} (h : decode s.cfg p = .instr op) :
    takeInput (.word p) s = exec op s := by
  rw [takeInput, h]

/-- A step that takes such a word runs the operation in the state with the event taken. -/
theorem step_instr {s : State} {e : Event} {rest : List Event} {p : Presented} {op : Instr}
    (hc : s.configOk = true) (he : s.inputs = e :: rest) (ht : s.time ≤ e.time) (hw : e.input = .word p)
    (hd : decode s.cfg p = .instr op) : step s = exec op (s.taking e rest) := by
  rw [step_take hc he ht, hw]
  exact takeInput_instr hd

/-- Taking an input of an agent, or `rst`, does not fault. -/
theorem takeInput_ne_fault {inp : Input} {s : State} (ha : inp.agentEvent = true) (h : BufferOk s) (r : Fault) :
    takeInput inp s ≠ .fault r := by
  intro hf
  cases inp with
  | rst a =>
    rw [takeInput] at hf
    split at hf <;> cases hf
  | word p =>
    cases hd : decode s.cfg p with
    | instr op =>
      obtain ⟨t, ht⟩ := exec_agentEvent_answers (decode_agentEvent ha hd) h
      rw [takeInput_instr hd, ht] at hf
      cases hf
    | noEvent =>
      rw [takeInput, hd] at hf
      cases hf
    | reject e =>
      rw [takeInput, hd] at hf
      cases hf

theorem BufferOk.taking {s : State} (h : BufferOk s) (e : Event) (rest : List Event) : BufferOk (s.taking e rest) :=
  h.of_buffer_eq rfl rfl

/-- With the invariants the next event is an agent's or `rst`. -/
theorem Inv.head_agentEvent {s : State} (h : Inv s) {e : Event} {rest : List Event} (he : s.inputs = e :: rest) :
    e.input.agentEvent = true := by
  have hall := h.events
  rw [State.agentEventsOnly, he, List.all_cons, Bool.and_eq_true] at hall
  exact hall.1

theorem Inv.step_ne_fault {s : State} (h : Inv s) (r : Fault) : step s ≠ .fault r := by
  cases he : s.inputs with
  | nil =>
    rw [step_idle h.config he]
    exact nofun
  | cons e rest =>
    rcases Nat.lt_or_ge e.time s.time with hlt | hge
    · simp [step, h.config, he, hlt]
    · rw [step_take h.config he hge]
      exact takeInput_ne_fault (h.head_agentEvent he) (h.buffer.taking e rest) r

/-! ### The obligations -/

/-- Settles O51: the decoded operation is an agent's event, and those answer while the buffer's invariants hold. -/
theorem everyEventIsAnswered : Obligations.EveryEventIsAnswered := by
  intro s h
  refine ⟨h.step_ne_fault, fun e rest p op he ht hw hd => ?_⟩
  have hport : (Input.word p).agentEvent = true := hw ▸ h.head_agentEvent he
  rw [step_instr h.config he ht hw hd]
  exact exec_agentEvent_answers (decode_agentEvent hport hd) (h.buffer.taking e rest)

/-- Settles O43: below the timestamps' range the modulus changes nothing. -/
theorem elapsedIsRealTime : Obligations.ElapsedIsRealTime := by
  intro w t0 t h
  exact ⟨elapsed_sampled w h, fun hlt => by rw [elapsed_sampled w h, Nat.mod_eq_of_lt hlt]⟩

/-- Settles O54: a step takes the first event and runs what its word decodes to. -/
theorem stepRunsTheDecodedOperation : Obligations.StepRunsTheDecodedOperation := by
  intro s e rest p op hc he ht hw hd _
  exact step_instr hc he ht hw hd

end Sys2Proof.Machine

/-! The state family: the host's mirror (10_state.md R30, R38), the invariants (R29), the elements that are not meaningful
(93_implementation_defined.md U13) and what no step writes (R23, R24). First every operation on a slot as one `putSlot`;
then what one such change keeps (`SlotStep`) and what an agents' event is made of (`exec_agentEvent_run`). -/

namespace Sys2Proof.Machine

open Terms

/-! ### One slot: the operations in normal form -/

section SlotOperations

variable {s : State} {i : Nat} {c : Slot}

theorem output_eq_putSlot (h : s.conn[i]? = some c) (o : Output) : s.output o = s.putSlot i c [o] := by
  rw [← List.nil_append [o], ← putSlot_output, putSlot_self h]

theorem emitFrame_eq_putSlot (h : s.conn[i]? = some c) (f : Frame) :
    s.emitFrame f = s.putSlot i c [.tx (wireOf s.cfg f)] := output_eq_putSlot h _

theorem setRemote_eq_putSlot (h : s.conn[i]? = some c) (r : Addr) :
    s.setRemote i r = s.putSlot i { c with remote := r } [] := by
  rw [← putSlot_setRemote (slot_lt h), putSlot_self h]

theorem setConnState_eq_putSlot (h : s.conn[i]? = some c) (n : ConnState) :
    s.setConnState i n =
      s.putSlot i { c with state := n } (if c.state ≠ n then [.notify i c.remote c.state n] else []) := by
  have hput := putSlot_setConnState (d := c) (os := []) (slot_lt h) n
  rwa [putSlot_self h, List.nil_append] at hput

/-! ### The handlers on a slot that is there -/

/-- S2 of 45_connection_fsm.md R182. -/
theorem rxLinkOp_of_disconnected (h : s.conn[i]? = some c) (hs : c.state = .disconnected) :
    rxLinkOp s i =
      .next (s.putSlot i { c with state := .connected, lastActivity := s.now, retryCount := 0 }
        [.tx (ctlWire s .ack c.remote), .notify i c.remote .disconnected .connected]) := by
  have hi := slot_lt h
  rw [rxLinkOp, h]
  simp only [hs, if_true, emitFrame_eq_putSlot h, putSlot_setRetryCount hi, putSlot_touch hi, putSlot_setConnState hi]
  rfl

theorem rxLinkOp_of_live (h : s.conn[i]? = some c) (hs : c.state ≠ .disconnected) : rxLinkOp s i = .next s := by
  simp [rxLinkOp, h, hs]

/-- S3 of 45_connection_fsm.md R182. -/
theorem rxAckOp_of_connecting (h : s.conn[i]? = some c) (hs : c.state = .connecting) (f : RxFrame) :
    rxAckOp s i f =
      .next (s.putSlot i { c with state := .connected, remote := byteAddr f.sender8, lastActivity := s.now }
        [.notify i (byteAddr f.sender8) .connecting .connected]) := by
  have hi := slot_lt h
  rw [rxAckOp, h]
  simp only [hs, setRemote_eq_putSlot h, putSlot_touch hi, putSlot_setConnState hi]
  rfl

/-- S10 of 45_connection_fsm.md R182. -/
theorem rxAckOp_of_disconnecting (h : s.conn[i]? = some c) (hs : c.state = .disconnecting) (f : RxFrame) :
    rxAckOp s i f =
      .next (s.putSlot i { c with state := .disconnected } [.notify i c.remote .disconnecting .disconnected]) := by
  rw [rxAckOp, h]
  simp only [hs, setConnState_eq_putSlot h]
  rfl

theorem rxAckOp_of_settled (h : s.conn[i]? = some c) (hs : c.state = .connected ∨ c.state = .disconnected)
    (f : RxFrame) : rxAckOp s i f = .next s := by
  rcases hs with hs | hs <;> simp [rxAckOp, h, hs]

/-- S7 of 45_connection_fsm.md R182. -/
theorem rxUnlinkOp_of_connected (h : s.conn[i]? = some c) (hs : c.state = .connected) :
    rxUnlinkOp s i =
      .next (s.putSlot i { c with state := .disconnected }
        [.tx (ctlWire s .ack c.remote), .notify i c.remote .connected .disconnected]) := by
  rw [rxUnlinkOp, h]
  simp only [hs, if_true, emitFrame_eq_putSlot h, putSlot_setConnState (slot_lt h)]
  rfl

theorem rxUnlinkOp_of_not_connected (h : s.conn[i]? = some c) (hs : c.state ≠ .connected) :
    rxUnlinkOp s i = .next s := by
  simp [rxUnlinkOp, h, hs]

/-- S8 of 45_connection_fsm.md R182. -/
theorem rxDataOp_of_connected (h : s.conn[i]? = some c) (hs : c.state = .connected) (f : RxFrame) :
    rxDataOp s i f =
      .next (s.putSlot i { c with lastActivity := s.now }
        (.deliver c.remote f.payload :: if s.cfg.ackOnData then [.tx (ctlWire s .ack c.remote)] else [])) := by
  have hi := slot_lt h
  rw [rxDataOp, h]
  dsimp only
  rw [if_pos hs, output_eq_putSlot h]
  split
  · rw [putSlot_emitFrame, putSlot_touch hi]
    rfl
  · rw [putSlot_touch hi]

theorem rxDataOp_of_not_connected (h : s.conn[i]? = some c) (hs : c.state ≠ .connected) (f : RxFrame) :
    rxDataOp s i f = .next s := by
  simp [rxDataOp, h, hs]

/-! ### CONN_RX follows the inbound rows of the matrix -/

/-- The frame of a considered connection comes from its peer (45_connection_fsm.md R171). -/
theorem byteAddr_sender_of_considered {f : RxFrame} (h : considered s c f = true) : byteAddr f.sender8 = c.remote := by
  simp only [considered, Bool.and_eq_true, decide_eq_true_eq] at h
  rw [h.1]
  exact BitVec.setWidth_setWidth_of_le c.remote (by decide)

/-- `s` after an inbound frame `f` at slot `i` holding `c`, as the matrix of 45_connection_fsm.md R182 says. -/
def State.afterInbound (s : State) (i : Nat) (c : Slot) (f : RxFrame) : State :=
  s.putSlot i (inboundCell s i c f).1 (inboundCell s i c f).2

/-- A frame whose TYPE has no row in the slot's state leaves the slot alone. -/
theorem afterInbound_of_no_row (h : s.conn[i]? = some c) {f : RxFrame}
    (hdata : f.type8 = typeData → c.state ≠ .connected) (hlink : f.type8 = typeLink → c.state ≠ .disconnected)
    (hunlink : f.type8 = typeUnlink → c.state ≠ .connected)
    (hack : f.type8 = typeAck → c.state = .connected ∨ c.state = .disconnected) : s.afterInbound i c f = s := by
  have hcell : inboundCell s i c f = (c, []) := by
    unfold inboundCell
    cases hs : c.state with
    | disconnected => exact if_neg fun ht => hlink ht hs
    | connecting => exact if_neg fun ht => by simpa [hs] using hack ht
    | connected => exact (if_neg fun ht => hunlink ht hs).trans (if_neg fun ht => hdata ht hs)
    | disconnecting => exact if_neg fun ht => by simpa [hs] using hack ht
  rw [State.afterInbound, hcell]
  exact putSlot_self h

theorem rxLinkOp_eq_inbound (h : s.conn[i]? = some c) {f : RxFrame} (ht : f.type8 = typeLink) :
    rxLinkOp s i = .next (s.afterInbound i c f) := by
  by_cases hs : c.state = .disconnected
  · rw [rxLinkOp_of_disconnected h hs, State.afterInbound]
    simp [inboundCell, hs, ht]
  · rw [rxLinkOp_of_live h hs, afterInbound_of_no_row h] <;> simp [ht, hs]

theorem rxUnlinkOp_eq_inbound (h : s.conn[i]? = some c) {f : RxFrame} (ht : f.type8 = typeUnlink) :
    rxUnlinkOp s i = .next (s.afterInbound i c f) := by
  by_cases hs : c.state = .connected
  · rw [rxUnlinkOp_of_connected h hs, State.afterInbound]
    simp [inboundCell, hs, ht]
  · rw [rxUnlinkOp_of_not_connected h hs, afterInbound_of_no_row h] <;> simp [ht, hs]

theorem rxDataOp_eq_inbound (h : s.conn[i]? = some c) {f : RxFrame} (ht : f.type8 = typeData) :
    rxDataOp s i f = .next (s.afterInbound i c f) := by
  by_cases hs : c.state = .connected
  · rw [rxDataOp_of_connected h hs, State.afterInbound]
    simp [inboundCell, hs, ht]
  · rw [rxDataOp_of_not_connected h hs, afterInbound_of_no_row h] <;> simp [ht, hs]

/-- RX_ACK adopts the sender, which is the peer already when the frame is considered. -/
theorem rxAckOp_eq_inbound (h : s.conn[i]? = some c) {f : RxFrame} (hcon : considered s c f = true)
    (ht : f.type8 = typeAck) : rxAckOp s i f = .next (s.afterInbound i c f) := by
  cases hs : c.state with
  | connecting =>
    rw [rxAckOp_of_connecting h hs, State.afterInbound, byteAddr_sender_of_considered hcon]
    simp [inboundCell, hs, ht]
  | disconnecting =>
    rw [rxAckOp_of_disconnecting h hs, State.afterInbound]
    simp [inboundCell, hs, ht]
  | connected => rw [rxAckOp_of_settled h (.inl hs), afterInbound_of_no_row h] <;> simp [ht, hs]
  | disconnected => rw [rxAckOp_of_settled h (.inr hs), afterInbound_of_no_row h] <;> simp [ht, hs]

/-- CONN_RX on a considered frame follows the matrix (45_connection_fsm.md R171, R182). -/
theorem connRxOp_of_considered (h : s.conn[i]? = some c) {f : RxFrame} (hcon : considered s c f = true) :
    connRxOp s i f = .next (s.afterInbound i c f) := by
  rw [connRxOp, h]
  dsimp only
  rw [if_pos hcon]
  split
  · next ht => exact rxDataOp_eq_inbound h ht
  · next hdata =>
    split
    · next ht => exact rxLinkOp_eq_inbound h ht
    · next hlink =>
      split
      · next ht => exact rxUnlinkOp_eq_inbound h ht
      · next hunlink =>
        split
        · next ht => exact rxAckOp_eq_inbound h hcon ht
        · next hack =>
          rw [rxIgnoreOp, h, afterInbound_of_no_row h (fun ht => absurd ht hdata) (fun ht => absurd ht hlink)
            (fun ht => absurd ht hunlink) (fun ht => absurd ht hack)]

/-- CONN_RX ignores every other frame (45_connection_fsm.md R171). -/
theorem connRxOp_of_not_considered (h : s.conn[i]? = some c) {f : RxFrame} (hcon : considered s c f = false) :
    connRxOp s i f = .next s := by
  simp [connRxOp, h, hcon]

/-! ### TICK follows the timer rows of the matrix -/

/-- RETRY within its condition (45_connection_fsm.md R184). -/
theorem retryOp_of_pending (h : s.conn[i]? = some c) (hs : c.state = .connecting ∨ c.state = .disconnecting)
    (hn : c.retryCount.toNat < s.cfg.maxRetries) :
    retryOp s i c =
      s.putSlot i { c with retryCount := c.retryCount + 1, lastActivity := s.now } [.tx (pendingWire s c)] := by
  have hi := slot_lt h
  rw [retryOp, if_pos ⟨hs, hn⟩]
  dsimp only
  rw [emitFrame_eq_putSlot h, putSlot_setRetryCount hi, putSlot_touch hi]
  rfl

/-- GIVE_UP and IDLE_DROP on a slot in use (45_connection_fsm.md R185, R186). -/
theorem dropOp_of_live (h : s.conn[i]? = some c) (hs : c.state ≠ .disconnected) :
    dropOp s i = s.putSlot i { c with state := .disconnected } [.notify i c.remote c.state .disconnected] := by
  rw [dropOp, setConnState_eq_putSlot h, if_pos hs]

/-- TICK on a slot that is there does what its cell says (45_connection_fsm.md R182, R183). -/
theorem tickSlot_eq_tickCell (h : s.conn[i]? = some c) :
    tickSlot s i = s.putSlot i (tickCell s i c).1 (tickCell s i c).2 := by
  obtain ⟨st, r, last, n⟩ := c
  rw [tickSlot, h, tickCell]
  cases st with
  | disconnected => exact (putSlot_self h).symm
  | connected =>
    dsimp only
    split
    · exact dropOp_of_live h nofun
    · exact (putSlot_self h).symm
  | connecting =>
    dsimp only
    split
    · split
      · next hn => exact retryOp_of_pending h (.inl rfl) hn
      · exact dropOp_of_live h nofun
    · exact (putSlot_self h).symm
  | disconnecting =>
    dsimp only
    split
    · split
      · next hn => exact retryOp_of_pending h (.inr rfl) hn
      · exact dropOp_of_live h nofun
    · exact (putSlot_self h).symm

theorem tickSlot_of_none (h : s.conn[i]? = none) : tickSlot s i = s := by
  rw [tickSlot, h]

/-! ### The host commands -/

/-- A peer whose `cstate` is CONNECTED has a slot in that state (45_connection_fsm.md R170). -/
theorem State.cstate_eq_connected {r : Addr} (h : s.cstate r = .connected) :
    ∃ i c, s.find r = some i ∧ s.conn[i]? = some c ∧ c.state = .connected ∧ c.live = true := by
  rw [State.cstate] at h
  cases hf : s.find r with
  | none =>
    rw [hf] at h
    cases h
  | some i =>
    obtain ⟨c, hc, hlive, -⟩ := State.find_eq_some hf
    rw [hf] at h
    exact ⟨i, c, rfl, hc, (State.slotState_of_slot hc).symm.trans h, hlive⟩

theorem execCmdConnect_of_known {r : Addr} (hf : s.find r = some i) :
    execCmdConnect r s =
      .next (s.raise (if s.slotState i = .connected then .alreadyConnected else .alreadyPending)) := by
  rw [execCmdConnect, hf]
  dsimp only
  split <;> rfl

theorem execCmdConnect_of_full {r : Addr} (hf : s.find r = none) (hj : s.free = none) :
    execCmdConnect r s = .next (s.raise .noFreeSlot) := by
  rw [execCmdConnect, hf]
  dsimp only
  rw [hj]

/-- S1 of 45_connection_fsm.md R182. -/
theorem execCmdConnect_of_free {r : Addr} (hf : s.find r = none) (hj : s.free = some i) (h : s.conn[i]? = some c)
    (hs : c.state = .disconnected) :
    execCmdConnect r s =
      .next (s.putSlot i { state := .connecting, remote := r, lastActivity := s.now, retryCount := 0 }
        [.tx (ctlWire s .link r), .notify i r .disconnected .connecting, .status .ok]) := by
  have hi := slot_lt h
  rw [execCmdConnect, hf]
  dsimp only
  rw [hj]
  dsimp only
  rw [setRemote_eq_putSlot h, putSlot_emitFrame, putSlot_setRetryCount hi, putSlot_touch hi, putSlot_setConnState hi,
    putSlot_output, hs]
  rfl

theorem execCmdDisconnect_of_not_connected {r : Addr} (h : s.cstate r ≠ .connected) :
    execCmdDisconnect r s = .next (s.raise .notConnected) := by
  rw [State.cstate] at h
  rw [execCmdDisconnect]
  cases hf : s.find r with
  | none => rfl
  | some i =>
    rw [hf] at h
    exact if_neg h

/-- S6 of 45_connection_fsm.md R182. -/
theorem execCmdDisconnect_of_connected {r : Addr} (hf : s.find r = some i) (h : s.conn[i]? = some c)
    (hs : c.state = .connected) :
    execCmdDisconnect r s =
      .next (s.putSlot i { c with state := .disconnecting, lastActivity := s.now, retryCount := 0 }
        [.tx (ctlWire s .unlink r), .notify i c.remote .connected .disconnecting, .status .ok]) := by
  have hi := slot_lt h
  rw [execCmdDisconnect, hf]
  dsimp only
  rw [if_pos (by rw [State.slotState_of_slot h, hs]), emitFrame_eq_putSlot h, putSlot_setRetryCount hi, putSlot_touch hi,
    putSlot_setConnState hi, putSlot_output, hs]
  rfl

theorem execCmdSend_of_not_connected {r : Addr} {payload : List Byte} (h : s.cstate r ≠ .connected) :
    execCmdSend r payload s = .next (s.raise .notConnected) := by
  rw [State.cstate] at h
  rw [execCmdSend]
  cases hf : s.find r with
  | none => rfl
  | some i =>
    rw [hf] at h
    exact if_neg h

/-- The SEND row of 45_connection_fsm.md R182. -/
theorem execCmdSend_of_connected {r : Addr} {payload : List Byte} (hf : s.find r = some i) (h : s.conn[i]? = some c)
    (hs : c.state = .connected) :
    execCmdSend r payload s =
      .next (s.putSlot i { c with lastActivity := s.now }
        [.tx (wireOf s.cfg { receiver := r, sender := s.localAddr, type := .data, payload := payload }),
          .status .ok]) := by
  rw [execCmdSend, hf]
  dsimp only
  rw [if_pos (by rw [State.slotState_of_slot h, hs]), emitFrame_eq_putSlot h, putSlot_touch (slot_lt h), putSlot_output]
  rfl

theorem execCmdAbort_of_unknown {r : Addr} (hf : s.find r = none) :
    execCmdAbort r s = .next (s.output (.status .ok)) := by
  rw [execCmdAbort, hf]

/-- The ABORT row of 45_connection_fsm.md R182. -/
theorem execCmdAbort_of_live {r : Addr} (hf : s.find r = some i) (h : s.conn[i]? = some c) (hs : c.live = true) :
    execCmdAbort r s =
      .next (s.putSlot i { c with state := .disconnected } [.notify i c.remote c.state .disconnected, .status .ok]) := by
  rw [execCmdAbort, hf]
  dsimp only
  rw [setConnState_eq_putSlot h, putSlot_output, if_pos ((Slot.live_iff c).1 hs)]
  rfl

end SlotOperations

/-! ### One change of one slot: what every row of the matrix keeps -/

/-- An output that tells a host that watches Notify nothing. -/
def Output.quiet (o : Output) : Prop := ∀ states, mirrorOne states o = some states

@[simp] theorem Output.quiet_tx (wire : List Byte) : (Output.tx wire).quiet := fun _ => rfl

@[simp] theorem Output.quiet_deliver (a : Addr) (payload : List Byte) : (Output.deliver a payload).quiet := fun _ => rfl

@[simp] theorem Output.quiet_status (st : Status) : (Output.status st).quiet := fun _ => rfl

/-- No failure is reported by a Notify (60_exceptions.md R230). -/
@[simp] theorem Failure.quiet_report (e : Failure) : e.report.quiet := by
  cases e <;> exact fun _ => rfl

theorem mirror_of_quiet {os : List Output} (h : ∀ o ∈ os, o.quiet) (states : List ConnState) :
    mirror os states = some states := by
  induction os with
  | nil => rfl
  | cons o os ih =>
    rw [mirror, h o List.mem_cons_self states]
    exact ih fun p hp => h p (List.mem_cons_of_mem o hp)

/-- No slot in use is for peer `r`, as `find` says (45_connection_fsm.md R170). -/
def NoLivePeer (conn : List Slot) (r : Addr) : Prop := ∀ e ∈ conn, e.live = true → e.remote ≠ r

/-- Slot `i` goes from `c` to `d` with outputs `os` as a row of 45_connection_fsm.md R182 may: the outputs mirror the
change, a slot comes into use only for a peer that has none, `retry_count` does not pass `MAX_RETRIES`, and only `now` is
recorded as activity. -/
structure SlotStep (s : State) (i : Nat) (c d : Slot) (os : List Output) : Prop where
  mirrors : ∀ states : List ConnState, states[i]? = some c.state → mirror os states = some (states.set i d.state)
  peer : d.live = true → (c.live = true ∧ d.remote = c.remote) ∨ NoLivePeer s.conn d.remote
  retries : d.retryCount.toNat ≤ max c.retryCount.toNat s.cfg.maxRetries
  stamp : d.lastActivity = c.lastActivity ∨ d.lastActivity = s.now

section SlotSteps

variable {s : State} {i : Nat} {c d : Slot} {os before after : List Output}

/-- Quiet outputs mirror a change that leaves the slot's state alone. -/
theorem mirror_stays (hquiet : ∀ o ∈ os, o.quiet) {st : ConnState} {states : List ConnState}
    (h : states[i]? = some st) : mirror os states = some (states.set i st) := by
  obtain ⟨hi, rfl⟩ := List.getElem?_eq_some_iff.1 h
  rw [mirror_of_quiet hquiet, List.set_getElem_self]

/-- One Notify among quiet outputs mirrors the change it reports. -/
theorem mirror_moves (hbefore : ∀ o ∈ before, o.quiet) (hafter : ∀ o ∈ after, o.quiet) (r : Addr)
    {old new : ConnState} (hne : old ≠ new) {states : List ConnState} (h : states[i]? = some old) :
    mirror (before ++ .notify i r old new :: after) states = some (states.set i new) := by
  rw [mirror_append, mirror_of_quiet hbefore, Option.bind_some, mirror, mirrorOne, if_pos ⟨h, hne⟩]
  exact mirror_of_quiet hafter _

theorem SlotStep.refl (s : State) (i : Nat) (c : Slot) : SlotStep s i c c [] where
  mirrors _ := mirror_stays (by simp)
  peer h := .inl ⟨h, rfl⟩
  retries := le_max_left _ _
  stamp := .inl rfl

/-- `remote` of a DISCONNECTED slot is free to be written. -/
theorem SlotStep.claims (hs : c.state = .disconnected) (r : Addr) : SlotStep s i c { c with remote := r } [] where
  mirrors _ := mirror_stays (by simp)
  peer h := absurd hs ((Slot.live_iff _).1 h)
  retries := le_max_left _ _
  stamp := .inl rfl

/-- S8 and the SEND row: activity is recorded. -/
theorem SlotStep.records (hquiet : ∀ o ∈ os, o.quiet) : SlotStep s i c { c with lastActivity := s.now } os where
  mirrors _ := mirror_stays hquiet
  peer h := .inl ⟨h, rfl⟩
  retries := le_max_left _ _
  stamp := .inr rfl

/-- S4 and S11: the pending frame again. -/
theorem SlotStep.retrying (hn : c.retryCount.toNat < s.cfg.maxRetries) (hquiet : ∀ o ∈ os, o.quiet) :
    SlotStep s i c { c with retryCount := c.retryCount + 1, lastActivity := s.now } os where
  mirrors _ := mirror_stays hquiet
  peer h := .inl ⟨h, rfl⟩
  retries := by
    have hsucc : (c.retryCount + 1).toNat ≤ c.retryCount.toNat + 1 := by
      rw [BitVec.toNat_add]
      exact Nat.mod_le _ _
    exact le_max_of_le_right (hsucc.trans hn)
  stamp := .inr rfl

/-- S5, S7, S9, S10, S12 and the ABORT row: the slot goes to DISCONNECTED. -/
theorem SlotStep.drops (hs : c.state ≠ .disconnected) (hbefore : ∀ o ∈ before, o.quiet)
    (hafter : ∀ o ∈ after, o.quiet) :
    SlotStep s i c { c with state := .disconnected }
      (before ++ .notify i c.remote c.state .disconnected :: after) where
  mirrors _ := mirror_moves hbefore hafter c.remote hs
  peer h := absurd rfl ((Slot.live_iff _).1 h)
  retries := le_max_left _ _
  stamp := .inl rfl

/-- S1, S2, S3 and S6: the slot goes on with recorded activity, for the peer it had or for one that has no slot. -/
theorem SlotStep.enters (hne : c.state ≠ d.state)
    (hpeer : (c.live = true ∧ d.remote = c.remote) ∨ NoLivePeer s.conn d.remote)
    (hcount : d.retryCount = 0 ∨ d.retryCount = c.retryCount) (hstamp : d.lastActivity = s.now)
    (r : Addr) (hos : os = before ++ .notify i r c.state d.state :: after) (hbefore : ∀ o ∈ before, o.quiet)
    (hafter : ∀ o ∈ after, o.quiet) : SlotStep s i c d os where
  mirrors _ h := hos ▸ mirror_moves hbefore hafter r hne h
  peer _ := hpeer
  retries := by rcases hcount with h | h <;> simp [h]
  stamp := .inr hstamp

/-- The inbound rows, for a slot in use or claimed for a peer that has none. -/
theorem inboundCell_slotStep (f : RxFrame) (hpeer : c.live = true ∨ NoLivePeer s.conn c.remote) :
    SlotStep s i c (inboundCell s i c f).1 (inboundCell s i c f).2 := by
  obtain ⟨st, r, last, n⟩ := c
  rw [inboundCell]
  cases st with
  | disconnected =>
    have hnew : NoLivePeer s.conn r := hpeer.resolve_left nofun
    dsimp only
    split
    · exact .enters (before := [_]) (after := []) nofun (.inr hnew) (.inl rfl) rfl r rfl (by simp) (by simp)
    · exact .refl _ _ _
  | connecting =>
    dsimp only
    split
    · exact .enters (before := []) (after := []) nofun (.inl ⟨rfl, rfl⟩) (.inr rfl) rfl r rfl (by simp) (by simp)
    · exact .refl _ _ _
  | connected =>
    dsimp only
    split
    · exact .drops (before := [_]) (after := []) nofun (by simp) (by simp)
    · split
      · exact .records (by split <;> simp)
      · exact .refl _ _ _
  | disconnecting =>
    dsimp only
    split
    · exact .drops (before := []) (after := []) nofun (by simp) (by simp)
    · exact .refl _ _ _

/-- The timer rows. -/
theorem tickCell_slotStep (s : State) (i : Nat) (c : Slot) :
    SlotStep s i c (tickCell s i c).1 (tickCell s i c).2 := by
  obtain ⟨st, r, last, n⟩ := c
  rw [tickCell]
  cases st with
  | disconnected => exact .refl _ _ _
  | connected =>
    dsimp only
    split
    · exact .drops (before := []) (after := []) nofun (by simp) (by simp)
    · exact .refl _ _ _
  | connecting =>
    dsimp only
    split
    · split
      · next hn => exact .retrying hn (by simp)
      · exact .drops (before := []) (after := []) nofun (by simp) (by simp)
    · exact .refl _ _ _
  | disconnecting =>
    dsimp only
    split
    · split
      · next hn => exact .retrying hn (by simp)
      · exact .drops (before := []) (after := []) nofun (by simp) (by simp)
    · exact .refl _ _ _

end SlotSteps

/-! ### A chain of changes: what an agents' event does to the connections -/

/-- One quiet output, or one change of one slot. -/
inductive ConnStep (s : State) : State → Prop
  | report (o : Output) (h : o.quiet) : ConnStep s (s.output o)
  | slot (i : Nat) (c d : Slot) (os : List Output) (hc : s.conn[i]? = some c) (h : SlotStep s i c d os) :
      ConnStep s (s.putSlot i d os)

/-- Some changes, one after the other. -/
abbrev ConnRun : State → State → Prop := Relation.ReflTransGen ConnStep

theorem ConnStep.onlyConnOut {s t : State} (h : ConnStep s t) : OnlyConnOut s t := by
  cases h <;> rfl

theorem ConnRun.onlyConnOut {s t : State} (h : ConnRun s t) : OnlyConnOut s t := by
  induction h with
  | refl => exact .refl s
  | tail _ hstep ih => exact ih.trans hstep.onlyConnOut

theorem ConnRun.single {s t : State} (h : ConnStep s t) : ConnRun s t := Relation.ReflTransGen.single h

/-- One slot is changed as a row may. -/
theorem ConnRun.putSlot {s : State} {i : Nat} {c d : Slot} {os : List Output} (hc : s.conn[i]? = some c)
    (h : SlotStep s i c d os) : ConnRun s (s.putSlot i d os) := .single (.slot i c d os hc h)

theorem ConnRun.raise (s : State) (e : Failure) : ConnRun s (s.raise e) := .single (.report _ e.quiet_report)

/-- CONN_RX on a slot in use, or on one claimed for a peer that has none. -/
theorem connRxOp_run {s t : State} {i : Nat} {c : Slot} {f : RxFrame} (hc : s.conn[i]? = some c)
    (hpeer : c.live = true ∨ NoLivePeer s.conn c.remote) (h : connRxOp s i f = .next t) : ConnRun s t := by
  cases hcon : considered s c f with
  | true =>
    rw [connRxOp_of_considered hc hcon] at h
    cases h
    exact .putSlot hc (inboundCell_slotStep f hpeer)
  | false =>
    rw [connRxOp_of_not_considered hc hcon] at h
    cases h
    exact .refl

/-- Claiming a DISCONNECTED slot puts no slot in use. -/
theorem NoLivePeer.setRemote {s : State} {j : Nat} {c : Slot} {r : Addr} (hn : NoLivePeer s.conn r)
    (hc : s.conn[j]? = some c) (hs : c.state = .disconnected) : NoLivePeer (s.setRemote j r).conn r := by
  intro e he hlive
  rw [State.setRemote_conn, modify_eq_set hc] at he
  rcases List.mem_or_eq_of_mem_set he with he | rfl
  · exact hn e he hlive
  · exact absurd hs ((Slot.live_iff _).1 hlive)

/-- ROUTE changes the slot of the sender, or claims a free slot for it first (44_frame_deserializer.md R153). -/
theorem routeOp_run {s t : State} {f : RxFrame} (h : routeOp s f = .next t) : ConnRun s t := by
  obtain rfl | ⟨i, hi, hrx⟩ | ⟨j, hnone, -, hj, hrx⟩ := routeOp_next h
  · exact .refl
  · obtain ⟨c, hc, hlive, -⟩ := State.find_eq_some hi
    exact connRxOp_run hc (.inl hlive) hrx
  · obtain ⟨c, hc, hs⟩ := State.free_eq_some hj
    have hclaim : ConnRun s (s.setRemote j (byteAddr f.sender8)) :=
      setRemote_eq_putSlot hc _ ▸ .putSlot hc (.claims hs _)
    have hnew : NoLivePeer s.conn (byteAddr f.sender8) := State.find_eq_none hnone
    exact hclaim.trans (connRxOp_run (modify_get_same hc _) (.inr (hnew.setRemote hc hs)) hrx)

theorem frameDone_run {s t : State} {r : Deserialized} (h : frameDone s r = .next t) : ConnRun s t := by
  unfold frameDone at h
  split at h
  · split at h
    · exact routeOp_run h
    · cases h; exact .refl
  · cases h; exact .raise _ _

theorem execCmdConnect_run {s t : State} {r : Addr} (h : execCmdConnect r s = .next t) : ConnRun s t := by
  cases hf : s.find r with
  | some i =>
    rw [execCmdConnect_of_known hf] at h
    cases h
    exact .raise _ _
  | none =>
    cases hj : s.free with
    | none =>
      rw [execCmdConnect_of_full hf hj] at h
      cases h
      exact .raise _ _
    | some j =>
      obtain ⟨c, hc, hs⟩ := State.free_eq_some hj
      rw [execCmdConnect_of_free hf hj hc hs] at h
      cases h
      exact .putSlot hc (.enters (before := [_]) (after := [_]) (by simp [hs]) (.inr (State.find_eq_none hf)) (.inl rfl) rfl
        r (by rw [hs]; rfl) (by simp) (by simp))

theorem execCmdDisconnect_run {s t : State} {r : Addr} (h : execCmdDisconnect r s = .next t) : ConnRun s t := by
  by_cases hst : s.cstate r = .connected
  · obtain ⟨i, c, hf, hc, hs, hlive⟩ := State.cstate_eq_connected hst
    rw [execCmdDisconnect_of_connected hf hc hs] at h
    cases h
    exact .putSlot hc (.enters (before := [_]) (after := [_]) (by simp [hs]) (.inl ⟨hlive, rfl⟩) (.inl rfl) rfl
      c.remote (by rw [hs]; rfl) (by simp) (by simp))
  · rw [execCmdDisconnect_of_not_connected hst] at h
    cases h
    exact .raise _ _

theorem execCmdSend_run {s t : State} {r : Addr} {payload : List Byte} (h : execCmdSend r payload s = .next t) :
    ConnRun s t := by
  by_cases hst : s.cstate r = .connected
  · obtain ⟨i, c, hf, hc, hs, -⟩ := State.cstate_eq_connected hst
    rw [execCmdSend_of_connected hf hc hs] at h
    cases h
    exact .putSlot hc (.records (by simp))
  · rw [execCmdSend_of_not_connected hst] at h
    cases h
    exact .raise _ _

theorem execCmdAbort_run {s t : State} {r : Addr} (h : execCmdAbort r s = .next t) : ConnRun s t := by
  cases hf : s.find r with
  | none =>
    rw [execCmdAbort_of_unknown hf] at h
    cases h
    exact .single (.report _ (Output.quiet_status .ok))
  | some i =>
    obtain ⟨c, hc, hlive, -⟩ := State.find_eq_some hf
    rw [execCmdAbort_of_live hf hc hlive] at h
    cases h
    exact .putSlot hc (.drops (before := []) (after := [_]) ((Slot.live_iff c).1 hlive) (by simp) (by simp))

theorem tickSlot_run (s : State) (i : Nat) : ConnRun s (tickSlot s i) := by
  cases hc : s.conn[i]? with
  | none => rw [tickSlot_of_none hc]
  | some c =>
    rw [tickSlot_eq_tickCell hc]
    exact .putSlot hc (tickCell_slotStep s i c)

theorem tickSlots_run (is : List Nat) (s : State) : ConnRun s (tickSlots is s) :=
  tickSlots_induction (P := ConnRun s) (fun u i h => h.trans (tickSlot_run u i)) is s .refl

/-! ### The receive path: registers first, then the connections -/

/-- Only the registers of the receive path are written (10_state.md R25, R26), and the frame buffer's invariants kept. -/
structure ReceiverStep (s u : State) : Prop where
  frame : u = { s with bmPos := u.bmPos, bmCw := u.bmCw, bmHaveUpper := u.bmHaveUpper, bmUpper := u.bmUpper,
                       faBuf := u.faBuf, faCount := u.faCount }
  buffer : BufferOk s → BufferOk u

namespace ReceiverStep

variable {s u : State}

theorem conn_eq (h : ReceiverStep s u) : u.conn = s.conn := by rw [h.frame]

theorem out_eq (h : ReceiverStep s u) : u.out = s.out := by rw [h.frame]

theorem cfg_eq (h : ReceiverStep s u) : u.cfg = s.cfg := by rw [h.frame]

theorem refl (s : State) : ReceiverStep s s := ⟨rfl, id⟩

/-- The deframer's registers are no part of the buffer's invariants. -/
theorem deframer (s : State) (pos : BmPos) (cw : Byte) (haveUpper : Bool) (upper : Nibble) :
    ReceiverStep s { s with bmPos := pos, bmCw := cw, bmHaveUpper := haveUpper, bmUpper := upper } :=
  ⟨rfl, fun h => h.of_buffer_eq rfl rfl⟩

end ReceiverStep

/-- A cleared buffer in canonical form has the invariants. -/
theorem BufferOk.cleared {s : State} (hw : Memory.wf s.faBuf = true) (h0 : s.faCount = 0) : BufferOk s where
  canonical := hw
  count_le := by simp [h0]
  written k hk := by simp [h0] at hk
  unfinished len h5 := by simp [h0] at h5

/-- FA_PUSH's store keeps the invariants while the buffer is not complete (10_state.md R29 I-3, I-5). -/
theorem BufferOk.push {s : State} (h : BufferOk s) (d : Byte)
    (hopen : (s.faCount + 1).toNat < 5 ∨ ∃ len : Byte, bufRead (bufInsert s.faBuf s.faCount.toNat d) 4 = some len ∧
      (s.faCount + 1).toNat < len.toNat + frameOverhead) :
    BufferOk { s with faBuf := bufInsert s.faBuf s.faCount.toNat d, faCount := s.faCount + 1 } where
  canonical := bufSorted_bufInsert d h.canonical (Nat.zero_le _) (Nat.lt_succ_of_le h.count_le)
  count_le := by
    rcases hopen with hlt | ⟨len, -, hlt⟩
    · exact (Nat.le_of_lt hlt).trans (by decide)
    · have hlen := len.isLt
      dsimp only [frameOverhead] at *
      omega
  written k hk := h.written_bufInsert d (by rw [h.count_succ] at hk; omega)
  unfinished len h5 hlen := by
    rcases hopen with hlt | ⟨len', hlen', hlt⟩
    · exact absurd h5 (Nat.not_le.mpr hlt)
    · rw [hlen] at hlen'
      cases hlen'
      exact hlt

/-- FA_PUSH stores the byte, and runs what a completed frame sets off (44_frame_deserializer.md R151). -/
theorem faPushOp_run {s t : State} {d : Byte} (h : faPushOp s d = .next t) :
    ∃ u, ReceiverStep s u ∧ ConnRun u t := by
  obtain ⟨hroom, ⟨rfl, hopen⟩ | ⟨len, bytes, -, -, -, -, hdone⟩⟩ := faPushOp_next h
  · exact ⟨_, ⟨rfl, fun hb => hb.push d hopen⟩, .refl⟩
  · refine ⟨_, ⟨rfl, fun hb => .cleared ?_ rfl⟩, frameDone_run hdone⟩
    exact bufSorted_bufInsert d hb.canonical (Nat.zero_le _) hroom

theorem ReceiverStep.trans {s u v : State} (h : ReceiverStep s u) (k : ReceiverStep u v) : ReceiverStep s v where
  frame := by rw [k.frame, h.frame]
  buffer := k.buffer ∘ h.buffer

/-- The deframer moves on, and an assembled byte goes to FA_PUSH (42_byte_marker_codec.md R122 to R124). -/
theorem bmRxByteOp_run {s t : State} {b : Byte} (h : bmRxByteOp s b = .next t) :
    ∃ u, ReceiverStep s u ∧ ConnRun u t := by
  obtain ⟨-, ⟨-, rfl⟩ | ⟨-, rfl⟩⟩ | ⟨-, rfl⟩ | ⟨-, ⟨-, rfl⟩ | ⟨-, -, rfl⟩ | ⟨-, -, hpush⟩⟩ :=
    bmRxByteOp_next h
  · exact ⟨_, .refl _, .refl⟩
  · exact ⟨_, .deframer s _ _ _ _, .refl⟩
  · exact ⟨_, .deframer s _ _ _ _, .refl⟩
  · exact ⟨_, .deframer s _ _ _ _, .refl⟩
  · exact ⟨_, .deframer s _ _ _ _, .refl⟩
  · obtain ⟨u, hu, hrun⟩ := faPushOp_run hpush
    exact ⟨u, (ReceiverStep.deframer s _ _ _ _).trans hu, hrun⟩

/-- What an agents' event can do: it writes registers of the receive path, then makes changes of slots, each as a row of
45_connection_fsm.md R182 may. -/
theorem exec_agentEvent_run {op : Instr} {s t : State} (ha : op.agentEvent = true) (h : exec op s = .next t) :
    ∃ u, ReceiverStep s u ∧ ConnRun u t := by
  cases op with
  | bmRxByte b => exact bmRxByteOp_run h
  | bmRxTimeout =>
    replace h : execBmRxTimeout s = .next t := h
    unfold execBmRxTimeout at h
    split at h <;> cases h
    · exact ⟨_, .deframer s _ _ _ _, .refl⟩
    · exact ⟨_, .refl _, .refl⟩
  | cmdConnect r => exact ⟨s, .refl _, execCmdConnect_run h⟩
  | cmdDisconnect r => exact ⟨s, .refl _, execCmdDisconnect_run h⟩
  | cmdSend r payload => exact ⟨s, .refl _, execCmdSend_run h⟩
  | cmdAbort r => exact ⟨s, .refl _, execCmdAbort_run h⟩
  | tick =>
    cases h
    exact ⟨s, .refl _, tickSlots_run _ _⟩
  | _ => cases ha

/-! ### Notifications mirror the slots' states -/

/-- The states of the slots, which a host that watches Notify holds (10_state.md R30). -/
def State.states (s : State) : List ConnState := s.conn.map (·.state)

/-- From `s` to `t` outputs are only appended, and they take the host's mirror along. -/
def Mirrors (s t : State) : Prop := ∃ os, t.out = s.out ++ os ∧ mirror os s.states = some t.states

theorem Mirrors.refl (s : State) : Mirrors s s := ⟨[], by simp, rfl⟩

theorem Mirrors.trans {s t u : State} (h : Mirrors s t) (k : Mirrors t u) : Mirrors s u := by
  obtain ⟨os, hout, hos⟩ := h
  obtain ⟨ps, kout, kps⟩ := k
  exact ⟨os ++ ps, by rw [kout, hout, List.append_assoc], by rw [mirror_append, hos, Option.bind_some, kps]⟩

theorem ConnStep.mirrors {s t : State} (h : ConnStep s t) : Mirrors s t := by
  cases h with
  | report o ho => exact ⟨[o], rfl, mirror_of_quiet (by simpa using ho) _⟩
  | slot i c d os hc hstep =>
    have hstate : s.states[i]? = some c.state := by simp [State.states, hc]
    refine ⟨os, rfl, ?_⟩
    rw [hstep.mirrors _ hstate, State.states, State.states, State.putSlot, List.map_set]

theorem ConnRun.mirrors {s t : State} (h : ConnRun s t) : Mirrors s t := by
  induction h with
  | refl => exact .refl s
  | tail _ hstep ih => exact ih.trans hstep.mirrors

/-- Settles O45: the receive path's registers are not mirrored, and each change of a slot carries its Notify. -/
theorem notifyMirrorsEveryTransition : Obligations.NotifyMirrorsEveryTransition := by
  intro s t op ha h
  obtain ⟨u, hu, hrun⟩ := exec_agentEvent_run ha h
  obtain ⟨os, hout, hos⟩ := hrun.mirrors
  rw [State.states, hu.conn_eq] at hos
  exact ⟨os, hu.out_eq ▸ hout, hos⟩

/-! ### The configuration, the address and the schedule -/

/-- What no operation writes: the configuration, `LOCAL_ADDR` and the events still to come (10_state.md R23, R24). -/
structure SameSetting (s t : State) : Prop where
  cfg : t.cfg = s.cfg
  localAddr : t.localAddr = s.localAddr
  inputs : t.inputs = s.inputs

theorem SameSetting.refl (s : State) : SameSetting s s := ⟨rfl, rfl, rfl⟩

theorem SameSetting.trans {s t u : State} (h : SameSetting s t) (k : SameSetting t u) : SameSetting s u :=
  ⟨k.cfg.trans h.cfg, k.localAddr.trans h.localAddr, k.inputs.trans h.inputs⟩

theorem OnlyConnOut.sameSetting {s t : State} (h : OnlyConnOut s t) : SameSetting s t := by
  rw [OnlyConnOut] at h
  constructor <;> rw [h]

theorem ReceiverStep.sameSetting {s u : State} (h : ReceiverStep s u) : SameSetting s u := by
  constructor <;> rw [h.frame]

/-- Registers of the receive path, then slots: neither is part of the setting. -/
theorem sameSetting_of_run {s t : State} (h : ∃ u, ReceiverStep s u ∧ ConnRun u t) : SameSetting s t := by
  obtain ⟨u, hu, hrun⟩ := h
  exact hu.sameSetting.trans hrun.onlyConnOut.sameSetting

theorem execRetry_frame {s t : State} {i : Nat} (h : execRetry i s = .next t) : OnlyConnOut s t := by
  unfold execRetry at h
  split at h <;> cases h
  exact retryOp_frame _ _ _

theorem execGiveUp_frame {s t : State} {i : Nat} (h : execGiveUp i s = .next t) : OnlyConnOut s t := by
  unfold execGiveUp at h
  split at h <;> cases h
  exact .setConnState _ _ _

theorem execIdleDrop_frame {s t : State} {i : Nat} (h : execIdleDrop i s = .next t) : OnlyConnOut s t := by
  unfold execIdleDrop at h
  split at h <;> cases h
  exact .setConnState _ _ _

/-- No operation writes the setting, the internal steps presented by themselves included. -/
theorem exec_sameSetting {op : Instr} {s t : State} (h : exec op s = .next t) : SameSetting s t := by
  by_cases ha : op.agentEvent = true
  · exact sameSetting_of_run (exec_agentEvent_run ha h)
  cases op with
  | henc n => cases h; exact ⟨rfl, rfl, rfl⟩
  | hdec c => cases h; exact ⟨rfl, rfl, rfl⟩
  | bmEnc bs => cases h; exact ⟨rfl, rfl, rfl⟩
  | serialize f => cases h; exact ⟨rfl, rfl, rfl⟩
  | deserialize buf => cases h; exact ⟨rfl, rfl, rfl⟩
  | accept f => cases h; exact ⟨rfl, rfl, rfl⟩
  | emit f => cases h; exact ⟨rfl, rfl, rfl⟩
  | faPush d => exact sameSetting_of_run (faPushOp_run h)
  | route f => exact (routeOp_frame h).sameSetting
  | connRx i f => exact (connRxOp_frame h).sameSetting
  | rxData i f => exact (rxDataOp_frame h).sameSetting
  | rxLink i f => exact (rxLinkOp_frame h).sameSetting
  | rxUnlink i f => exact (rxUnlinkOp_frame h).sameSetting
  | rxAck i f => exact (rxAckOp_frame h).sameSetting
  | rxRetryRequest i f => rw [rxIgnoreOp_next h]; exact .refl s
  | rxReserved i f => rw [rxIgnoreOp_next h]; exact .refl s
  | retry i => exact (execRetry_frame h).sameSetting
  | giveUp i => exact (execGiveUp_frame h).sameSetting
  | idleDrop i => exact (execIdleDrop_frame h).sameSetting
  | _ => exact absurd rfl ha

/-- Settles O52: an operation keeps the setting, an idle port and an idle step change nothing, and `rst` brings its own
address. -/
theorem configurationAndAddressAreConstant : Obligations.ConfigurationAndAddressAreConstant := by
  intro s t h
  obtain ⟨-, ⟨-, rfl⟩ | ⟨e, rest, he, -, htake⟩⟩ := step_next h
  · exact ⟨rfl, .inl rfl⟩
  · obtain ⟨a, hrst, -, rfl⟩ | ⟨p, -, ⟨-, rfl⟩ | ⟨op, -, hexec⟩⟩ := takeInput_next htake
    · exact ⟨rfl, .inr ⟨e, rest, a, he, hrst, rfl⟩⟩
    · exact ⟨rfl, .inl rfl⟩
    · have hset := exec_sameSetting hexec
      exact ⟨hset.cfg, .inl hset.localAddr⟩

/-! ### The connection table's invariants -/

/-- A slot changed as a row may still has its peer to itself (10_state.md R29 I-1). -/
theorem OneSlotPerPeer.set {s : State} {i : Nat} {c d : Slot} {os : List Output} (h : OneSlotPerPeer s.conn)
    (hc : s.conn[i]? = some c) (hstep : SlotStep s i c d os) : OneSlotPerPeer (s.conn.set i d) := by
  have hi := slot_lt hc
  have halone : ∀ (k : Nat) (e : Slot), s.conn[k]? = some e → e.live = true → d.live = true →
      e.remote = d.remote → i = k := by
    intro k e he helive hdlive hr
    rcases hstep.peer hdlive with ⟨hclive, hsame⟩ | hnone
    · exact h i k c e hc he hclive helive (hsame.symm.trans hr.symm)
    · exact absurd hr (hnone e (List.mem_of_getElem? he) helive)
  intro j k x y hx hy hxlive hylive hr
  by_cases hj : i = j <;> by_cases hk : i = k
  · exact hj.symm.trans hk
  · subst hj
    rw [List.getElem?_set_self hi] at hx
    rw [List.getElem?_set_ne hk] at hy
    cases hx
    exact halone k y hy hylive hxlive hr.symm
  · subst hk
    rw [List.getElem?_set_ne hj] at hx
    rw [List.getElem?_set_self hi] at hy
    cases hy
    exact (halone j x hx hxlive hylive hr).symm
  · rw [List.getElem?_set_ne hj] at hx
    rw [List.getElem?_set_ne hk] at hy
    exact h j k x y hx hy hxlive hylive hr

/-- The table's invariants are about the slots and the configuration alone. -/
theorem TableOk.of_conn_eq {s t : State} (h : TableOk s) (hconn : t.conn = s.conn) (hcfg : t.cfg = s.cfg) : TableOk t :=
  ⟨by rw [hconn, hcfg]; exact h.size, by rw [hconn]; exact h.one_slot, by rw [hconn, hcfg]; exact h.retries,
    by rw [hconn, hcfg]; exact h.stamps⟩

theorem State.now_lt (s : State) : s.now < 2 ^ s.cfg.tsW := Nat.mod_lt _ (Nat.two_pow_pos _)

/-- A change of a slot as a row may make it keeps the table's invariants. -/
theorem TableOk.putSlot {s : State} {i : Nat} {c d : Slot} {os : List Output} (h : TableOk s)
    (hc : s.conn[i]? = some c) (hstep : SlotStep s i c d os) : TableOk (s.putSlot i d os) where
  size := by rw [State.putSlot, List.length_set]; exact h.size
  one_slot := h.one_slot.set hc hstep
  retries e he := by
    rcases List.mem_or_eq_of_mem_set he with he | rfl
    · exact h.retries e he
    · exact hstep.retries.trans (max_le (h.retries c (List.mem_of_getElem? hc)) (le_refl _))
  stamps e he := by
    rcases List.mem_or_eq_of_mem_set he with he | rfl
    · exact h.stamps e he
    · rcases hstep.stamp with heq | heq
      · exact heq ▸ h.stamps c (List.mem_of_getElem? hc)
      · exact heq ▸ s.now_lt

theorem ConnStep.tableOk {s t : State} (hstep : ConnStep s t) (h : TableOk s) : TableOk t := by
  cases hstep with
  | report o _ => exact h.of_conn_eq rfl rfl
  | slot i c d os hc hslot => exact h.putSlot hc hslot

theorem ConnRun.tableOk {s t : State} (hrun : ConnRun s t) (h : TableOk s) : TableOk t := by
  induction hrun with
  | refl => exact h
  | tail _ hstep ih => exact hstep.tableOk ih

/-- The table after reset: every slot DISCONNECTED (10_state.md R40). -/
theorem TableOk.applyReset (s : State) (a : Addr) : TableOk (s.applyReset a) := by
  have hslot : ∀ c ∈ (s.applyReset a).conn, c = Slot.reset := fun c hc => List.eq_of_mem_replicate hc
  exact {
    size := List.length_replicate
    one_slot := fun i j c d hc _ hlive _ _ => by
      rw [hslot c (List.mem_of_getElem? hc)] at hlive
      cases hlive
    retries := fun c hc => by rw [hslot c hc]; exact Nat.zero_le _
    stamps := fun c hc => by rw [hslot c hc]; exact Nat.two_pow_pos _ }

/-! ### Every step keeps the invariants -/

/-- An agents' event keeps the buffer's and the table's invariants. -/
theorem exec_agentEvent_keeps {op : Instr} {s t : State} (ha : op.agentEvent = true) (h : exec op s = .next t)
    (hb : BufferOk s) (htab : TableOk s) : BufferOk t ∧ TableOk t := by
  obtain ⟨u, hu, hrun⟩ := exec_agentEvent_run ha h
  have hframe := hrun.onlyConnOut
  rw [OnlyConnOut] at hframe
  exact ⟨(hu.buffer hb).of_buffer_eq (by rw [hframe]) (by rw [hframe]),
    hrun.tableOk (htab.of_conn_eq hu.conn_eq hu.cfg_eq)⟩

/-- A legal setting stays legal. -/
theorem SameSetting.configOk {s t : State} (hset : SameSetting s t) (h : s.configOk = true) : t.configOk = true := by
  rwa [State.configOk, hset.cfg, hset.localAddr]

theorem SameSetting.agentEventsOnly {s t : State} (hset : SameSetting s t) (h : s.agentEventsOnly = true) :
    t.agentEventsOnly = true := by
  rwa [State.agentEventsOnly, hset.inputs]

/-- Taking an event off the schedule keeps the invariants. -/
theorem Inv.taking {s : State} (h : Inv s) {e : Event} {rest : List Event} (he : s.inputs = e :: rest) :
    Inv (s.taking e rest) where
  config := h.config
  buffer := h.buffer.taking e rest
  table := h.table.of_conn_eq rfl rfl
  events := by
    have hall := h.events
    rw [State.agentEventsOnly, he, List.all_cons, Bool.and_eq_true] at hall
    exact hall.2

/-- `rst` brings the block to a state with the invariants, for a legal address. -/
theorem Inv.applyReset {s : State} (h : Inv s) {a : Addr} (ha : a ≠ broadcast) : Inv (s.applyReset a) where
  config := by
    have hok := h.config
    rw [State.configOk, Bool.and_eq_true] at hok
    rw [State.configOk, Bool.and_eq_true]
    exact ⟨hok.1, decide_eq_true ha⟩
  buffer := .cleared rfl rfl
  table := .applyReset s a
  events := h.events

/-- An operation that is an agents' event keeps the invariants. -/
theorem Inv.exec {s t : State} (h : Inv s) {op : Instr} (ha : op.agentEvent = true) (hexec : exec op s = .next t) :
    Inv t := by
  have hset := exec_sameSetting hexec
  obtain ⟨hbuf, htab⟩ := exec_agentEvent_keeps ha hexec h.buffer h.table
  exact ⟨hset.configOk h.config, hbuf, htab, hset.agentEventsOnly h.events⟩

/-- Settles O50: an idle step and an idle port change nothing the invariants are about, `rst` establishes them, and each
agents' event keeps them. -/
theorem everyStepKeepsTheInvariants : Obligations.EveryStepKeepsTheInvariants := by
  intro s t h hstep
  obtain ⟨-, ⟨-, rfl⟩ | ⟨e, rest, he, -, htake⟩⟩ := step_next hstep
  · exact h
  · have hinv := h.taking he
    obtain ⟨a, -, ha, rfl⟩ | ⟨p, hp, ⟨-, rfl⟩ | ⟨op, hop, hexec⟩⟩ := takeInput_next htake
    · exact hinv.applyReset ha
    · exact hinv
    · exact hinv.exec (decode_agentEvent (hp ▸ h.head_agentEvent he) hop) hexec

/-! ### States of the same meaning -/

theorem Slot.sameMeaning.refl (c : Slot) : c.sameMeaning c := ⟨rfl, fun _ => ⟨rfl, rfl⟩, fun _ => rfl⟩

/-- Slots with the same elements, except for a `retry_count` that is not meaningful. -/
theorem Slot.sameMeaning.of_eq {c d : Slot} (hstate : c.state = d.state) (hremote : c.remote = d.remote)
    (hlast : c.lastActivity = d.lastActivity)
    (hcount : c.state = .connecting ∨ c.state = .disconnecting → c.retryCount = d.retryCount) : c.sameMeaning d :=
  ⟨hstate, fun _ => ⟨hremote, hlast⟩, hcount⟩

/-- Any two DISCONNECTED slots mean the same. -/
theorem Slot.sameMeaning.of_disconnected {c d : Slot} (hc : c.state = .disconnected) (hd : d.state = .disconnected) :
    c.sameMeaning d :=
  ⟨hc.trans hd.symm, fun h => absurd hc h, fun h => by simp [hc] at h⟩

theorem Slot.sameMeaning.state_eq {c d : Slot} (h : c.sameMeaning d) : c.state = d.state := h.1

theorem Slot.sameMeaning.live_eq {c d : Slot} (h : c.sameMeaning d) : c.live = d.live := by
  rw [Slot.live, Slot.live, h.state_eq]

/-- The peer of a slot in use is meaningful. -/
theorem Slot.sameMeaning.remote_eq {c d : Slot} (h : c.sameMeaning d) (hlive : c.live = true) : c.remote = d.remote := by
  obtain ⟨-, hmeaningful, -⟩ := h
  exact (hmeaningful ((Slot.live_iff c).1 hlive)).1

theorem Slot.sameMeaning.lastActivity_eq {c d : Slot} (h : c.sameMeaning d) (hs : c.state ≠ .disconnected) :
    c.lastActivity = d.lastActivity := by
  obtain ⟨-, hmeaningful, -⟩ := h
  exact (hmeaningful hs).2

theorem Slot.sameMeaning.retryCount_eq {c d : Slot} (h : c.sameMeaning d)
    (hs : c.state = .connecting ∨ c.state = .disconnecting) : c.retryCount = d.retryCount := by
  obtain ⟨-, -, hcount⟩ := h
  exact hcount hs

theorem SameMeaning.refl (s : State) : SameMeaning s s where
  cfg := rfl
  localAddr := rfl
  bmPos := rfl
  bmCw _ := rfl
  bmHaveUpper := rfl
  bmUpper _ := rfl
  faCount := rfl
  faBuf _ _ := rfl
  size := rfl
  conn i c d hc hd := by
    rw [hc] at hd
    cases hd
    exact .refl c
  time := rfl
  inputs := rfl
  out := rfl
  results := rfl

namespace SameMeaning

variable {s t : State}

theorem now (h : SameMeaning s t) : s.now = t.now := by rw [State.now, State.now, h.time, h.cfg]

/-- A slot that is there is there in both. -/
theorem slot (h : SameMeaning s t) {i : Nat} {c : Slot} (hc : s.conn[i]? = some c) :
    ∃ d, t.conn[i]? = some d ∧ c.sameMeaning d := by
  have hi : i < t.conn.length := h.size ▸ slot_lt hc
  exact ⟨t.conn[i], List.getElem?_eq_getElem hi, h.conn i c _ hc (List.getElem?_eq_getElem hi)⟩

/-- A test of slots that looks at meaningful elements only finds the same slot in both. -/
theorem findIdx?_eq (h : SameMeaning s t) {p : Slot → Bool} (hp : ∀ c d : Slot, c.sameMeaning d → p c = p d) :
    s.conn.findIdx? p = t.conn.findIdx? p := by
  have hmap : s.conn.map p = t.conn.map p := by
    apply List.ext_getElem (by simpa using h.size)
    intro i hi hi'
    rw [List.getElem_map, List.getElem_map]
    exact hp _ _ (h.conn i _ _ (List.getElem?_eq_getElem _) (List.getElem?_eq_getElem _))
  rw [← Function.id_comp p, ← List.findIdx?_map, hmap, List.findIdx?_map]

theorem find_eq (h : SameMeaning s t) (r : Addr) : s.find r = t.find r := by
  apply h.findIdx?_eq
  intro c d hcd
  rw [← hcd.live_eq]
  cases hlive : c.live with
  | true => rw [hcd.remote_eq hlive]
  | false => rfl

theorem free_eq (h : SameMeaning s t) : s.free = t.free :=
  h.findIdx?_eq fun _ _ hcd => by rw [hcd.live_eq]

theorem slotState_eq (h : SameMeaning s t) {i : Nat} {c : Slot} (hc : s.conn[i]? = some c) :
    s.slotState i = t.slotState i := by
  obtain ⟨d, hd, hcd⟩ := h.slot hc
  rw [State.slotState_of_slot hc, State.slotState_of_slot hd, hcd.state_eq]

theorem cstate_eq (h : SameMeaning s t) (r : Addr) : s.cstate r = t.cstate r := by
  rw [State.cstate, State.cstate, ← h.find_eq]
  cases hf : s.find r with
  | none => rfl
  | some i =>
    obtain ⟨c, hc, -, -⟩ := State.find_eq_some hf
    exact h.slotState_eq hc

/-- The same outputs, and slot `i` become slots of the same meaning. -/
theorem putSlot (h : SameMeaning s t) (i : Nat) {d e : Slot} (hde : d.sameMeaning e) (os : List Output) :
    SameMeaning (s.putSlot i d os) (t.putSlot i e os) :=
  { h with
    size := by simp [State.putSlot, h.size]
    out := congrArg (· ++ os) h.out
    conn := fun k x y hx hy => by
      simp only [State.putSlot, List.getElem?_set, h.size] at hx hy
      by_cases hk : i = k
      · rw [if_pos hk, Option.ite_none_right_eq_some] at hx hy
        obtain ⟨-, ⟨⟩⟩ := hx
        obtain ⟨-, ⟨⟩⟩ := hy
        exact hde
      · rw [if_neg hk] at hx hy
        exact h.conn k x y hx hy }

theorem output (h : SameMeaning s t) (o : Output) : SameMeaning (s.output o) (t.output o) :=
  { h with out := congrArg (· ++ [o]) h.out }

theorem raise (h : SameMeaning s t) (e : Failure) : SameMeaning (s.raise e) (t.raise e) := h.output _

/-- Frames are built from the configuration and the address, which are meaningful. -/
theorem ctlWire_eq (h : SameMeaning s t) (ty : FrameType) (r : Addr) : ctlWire s ty r = ctlWire t ty r := by
  rw [ctlWire, ctlWire, h.cfg, h.localAddr]

/-- A DISCONNECTED slot claimed for the same peer in both. -/
theorem setRemote (h : SameMeaning s t) {j : Nat} {c d : Slot} (hc : s.conn[j]? = some c) (hd : t.conn[j]? = some d)
    (hcd : c.sameMeaning d) (hs : c.state = .disconnected) (r : Addr) :
    SameMeaning (s.setRemote j r) (t.setRemote j r) := by
  have hslot : Slot.sameMeaning { c with remote := r } { d with remote := r } :=
    .of_disconnected hs (hcd.state_eq.symm.trans hs)
  rw [setRemote_eq_putSlot hc, setRemote_eq_putSlot hd]
  exact h.putSlot j hslot []

end SameMeaning

/-! ### The rows of the matrix look at meaningful elements only -/

/-- Cells with slots of the same meaning and the same outputs. -/
def SameCell (p q : Slot × List Output) : Prop := p.1.sameMeaning q.1 ∧ p.2 = q.2

section Rows

variable {s t : State} {i : Nat} {c d : Slot}

/-- The inbound rows; of a DISCONNECTED slot they look at `remote`, which ROUTE has just written. -/
theorem inboundCell_congr (h : SameMeaning s t) (hcd : c.sameMeaning d) (hr : c.remote = d.remote) (f : RxFrame) :
    SameCell (inboundCell s i c f) (inboundCell t i d f) := by
  obtain ⟨st, r, last, n⟩ := c
  obtain ⟨st', r', last', n'⟩ := d
  obtain rfl : st = st' := hcd.state_eq
  obtain rfl : r = r' := hr
  simp only [inboundCell, h.now, h.cfg, h.ctlWire_eq]
  cases st with
  | disconnected =>
    dsimp only
    split
    · exact ⟨.of_eq rfl rfl rfl (fun _ => rfl), rfl⟩
    · exact ⟨hcd, rfl⟩
  | connecting =>
    dsimp only
    split
    · exact ⟨.of_eq rfl rfl rfl (by simp), rfl⟩
    · exact ⟨hcd, rfl⟩
  | connected =>
    dsimp only
    split
    · exact ⟨.of_disconnected rfl rfl, rfl⟩
    · split
      · exact ⟨.of_eq rfl rfl rfl (by simp), rfl⟩
      · exact ⟨hcd, rfl⟩
  | disconnecting =>
    dsimp only
    split
    · exact ⟨.of_disconnected rfl rfl, rfl⟩
    · exact ⟨hcd, rfl⟩

/-- The timer rows. -/
theorem tickCell_congr (h : SameMeaning s t) (hcd : c.sameMeaning d) : SameCell (tickCell s i c) (tickCell t i d) := by
  by_cases hs : c.state = .disconnected
  · simpa [tickCell, hs, ← hcd.state_eq] using ⟨hcd, rfl⟩
  have hlast := hcd.lastActivity_eq hs
  have hr := hcd.remote_eq ((Slot.live_iff c).2 hs)
  obtain ⟨st, r, last, n⟩ := c
  obtain ⟨st', r', last', n'⟩ := d
  obtain rfl : st = st' := hcd.state_eq
  obtain rfl : r = r' := hr
  obtain rfl : last = last' := hlast
  simp only [tickCell, h.now, h.cfg, h.ctlWire_eq]
  cases st with
  | disconnected => exact absurd rfl hs
  | connected =>
    dsimp only
    split
    · exact ⟨.of_disconnected rfl rfl, rfl⟩
    · exact ⟨hcd, rfl⟩
  | connecting =>
    obtain rfl : n = n' := hcd.retryCount_eq (.inl rfl)
    exact ⟨.refl _, rfl⟩
  | disconnecting =>
    obtain rfl : n = n' := hcd.retryCount_eq (.inr rfl)
    exact ⟨.refl _, rfl⟩

end Rows

/-! ### The operations answer alike -/

/-- Two tests that agree, and answers alike on either side. -/
theorem SameOutcome.ite {p q : Prop} [Decidable p] [Decidable q] {a a' b b' : Out} (hpq : p ↔ q)
    (htrue : p → SameOutcome a a') (hfalse : ¬ p → SameOutcome b b') :
    SameOutcome (if p then a else b) (if q then a' else b') := by
  by_cases hp : p
  · rw [if_pos hp, if_pos (hpq.1 hp)]
    exact htrue hp
  · rw [if_neg hp, if_neg (hpq.not.1 hp)]
    exact hfalse hp

section Operations

variable {s t : State}

/-- CONN_RX on a slot whose peer is the same in both. -/
theorem connRxOp_congr (h : SameMeaning s t) {i : Nat} {c d : Slot} (hc : s.conn[i]? = some c)
    (hd : t.conn[i]? = some d) (hr : c.remote = d.remote) (f : RxFrame) :
    SameOutcome (connRxOp s i f) (connRxOp t i f) := by
  have hcon : considered s c f = considered t d f := by rw [considered, considered, hr, h.localAddr]
  cases hd' : considered t d f with
  | true =>
    rw [connRxOp_of_considered hc (hcon.trans hd'), connRxOp_of_considered hd hd']
    obtain ⟨hslot, hos⟩ := inboundCell_congr (i := i) h (h.conn i c d hc hd) hr f
    rw [State.afterInbound, State.afterInbound, hos]
    exact h.putSlot i hslot _
  | false =>
    rw [connRxOp_of_not_considered hc (hcon.trans hd'), connRxOp_of_not_considered hd hd']
    exact h

theorem routeOp_congr (h : SameMeaning s t) (f : RxFrame) : SameOutcome (routeOp s f) (routeOp t f) := by
  rw [routeOp, routeOp, ← h.localAddr, ← h.find_eq, ← h.free_eq]
  refine .ite .rfl (fun _ => h) fun _ => .ite .rfl (fun _ => h) fun _ => ?_
  cases hf : s.find (byteAddr f.sender8) with
  | some i =>
    obtain ⟨c, hc, hlive, -⟩ := State.find_eq_some hf
    obtain ⟨d, hd, hcd⟩ := h.slot hc
    exact connRxOp_congr h hc hd (hcd.remote_eq hlive) f
  | none =>
    refine .ite .rfl (fun _ => ?_) fun _ => h
    cases hj : s.free with
    | none => exact h
    | some j =>
      obtain ⟨c, hc, hs⟩ := State.free_eq_some hj
      obtain ⟨d, hd, hcd⟩ := h.slot hc
      exact connRxOp_congr (h.setRemote hc hd hcd hs _) (modify_get_same hc _) (modify_get_same hd _) rfl f

theorem frameDone_congr (h : SameMeaning s t) (r : Deserialized) : SameOutcome (frameDone s r) (frameDone t r) := by
  cases r with
  | ok f =>
    rw [frameDone, frameDone, acceptOp, acceptOp, ← h.localAddr]
    exact .ite .rfl (fun _ => routeOp_congr h f) fun _ => h
  | fail e => exact h.raise e

/-- Buffers that agree on a range have the same first hole in it. -/
theorem firstUnwritten_congr {buf buf' : List Host.Cell} {a n : Nat}
    (h : ∀ k, k < n → bufRead buf (a + k) = bufRead buf' (a + k)) :
    firstUnwritten buf a n = firstUnwritten buf' a n := by
  induction n generalizing a with
  | zero => rfl
  | succ n ih =>
    have htail : firstUnwritten buf (a + 1) n = firstUnwritten buf' (a + 1) n := ih fun k hk => by
      have hnext := h (k + 1) (by omega)
      rwa [show a + (k + 1) = a + 1 + k by omega] at hnext
    have hhead : bufRead buf a = bufRead buf' a := h 0 (by omega)
    rw [firstUnwritten, firstUnwritten, hhead, htail]

/-- After the same store the buffers agree up to the new byte. -/
theorem SameMeaning.bufRead_bufInsert_eq (h : SameMeaning s t) (d : Byte) {k : Nat} (hk : k ≤ s.faCount.toNat) :
    bufRead (bufInsert s.faBuf s.faCount.toNat d) k = bufRead (bufInsert t.faBuf s.faCount.toNat d) k := by
  rcases Nat.eq_or_lt_of_le hk with rfl | hlt
  · rw [bufRead_bufInsert_same, bufRead_bufInsert_same]
  · rw [bufRead_bufInsert_other _ _ (Nat.ne_of_lt hlt), bufRead_bufInsert_other _ _ (Nat.ne_of_lt hlt)]
    exact h.faBuf k hlt

/-- FA_PUSH reads the buffer below the new `fa_count` only. -/
theorem faPushOp_congr (h : SameMeaning s t) (d : Byte) : SameOutcome (faPushOp s d) (faPushOp t d) := by
  rw [faPushOp, faPushOp, ← h.faCount]
  rcases Nat.lt_or_ge s.faCount.toNat frameMax with hroom | hfull
  · have hcount : (s.faCount + 1).toNat = s.faCount.toNat + 1 := by
      dsimp only [frameMax] at hroom
      bv_omega
    have hbuf : ∀ k, k < s.faCount.toNat + 1 → bufRead (bufInsert s.faBuf s.faCount.toNat d) k =
        bufRead (bufInsert t.faBuf s.faCount.toNat d) k := fun k hk => h.bufRead_bufInsert_eq d (Nat.le_of_lt_succ hk)
    have hbuf0 : ∀ k, k < s.faCount.toNat + 1 → bufRead (bufInsert s.faBuf s.faCount.toNat d) (0 + k) =
        bufRead (bufInsert t.faBuf s.faCount.toNat d) (0 + k) := fun k hk => by rw [Nat.zero_add]; exact hbuf k hk
    have hpushed : SameMeaning { s with faBuf := bufInsert s.faBuf s.faCount.toNat d, faCount := s.faCount + 1 }
        { t with faBuf := bufInsert t.faBuf s.faCount.toNat d, faCount := s.faCount + 1 } :=
      { h with faCount := rfl, faBuf := fun k hk => hbuf k (hcount ▸ hk) }
    have hcleared : SameMeaning { s with faBuf := bufInsert s.faBuf s.faCount.toNat d, faCount := 0 }
        { t with faBuf := bufInsert t.faBuf s.faCount.toNat d, faCount := 0 } :=
      { h with faCount := rfl, faBuf := nofun }
    rw [memWrite_of_lt _ _ hroom, memWrite_of_lt _ _ hroom]
    dsimp only
    rw [hcount]
    refine .ite .rfl (fun h5 => ?_) fun _ => hpushed
    rw [hbuf 4 (by omega), memRead_congr hbuf0, firstUnwritten_congr hbuf0]
    cases bufRead (bufInsert t.faBuf s.faCount.toNat d) 4 with
    | none => exact rfl
    | some len =>
      refine .ite .rfl (fun _ => ?_) fun _ => hpushed
      cases memRead (bufInsert t.faBuf s.faCount.toNat d) 0 (s.faCount.toNat + 1) with
      | none => exact rfl
      | some bytes =>
        have hjudged : deserializeOp s.cfg bytes = deserializeOp t.cfg bytes := by rw [h.cfg]
        dsimp only
        rw [hjudged]
        exact frameDone_congr hcleared _
  · rw [memWrite_of_ge _ _ hfull, memWrite_of_ge _ _ hfull]
    exact rfl

theorem bmScan_congr (h : SameMeaning s t) (b : Byte) : SameOutcome (bmScan s b) (bmScan t b) :=
  .ite (by rw [h.cfg]) (fun _ => { h with bmPos := rfl, bmCw := nofun }) fun _ => h

/-- In END the deframer reads `bm_cw`, and `bm_upper` when there is one (42_byte_marker_codec.md R124). -/
theorem bmClose_congr (h : SameMeaning s t) (hp : s.bmPos = .close) (b : Byte) :
    SameOutcome (bmClose s b) (bmClose t b) := by
  have hnibble : hdecOp s.cfg.nibbleBitOrder (byteCodeword s.bmCw) =
      hdecOp t.cfg.nibbleBitOrder (byteCodeword t.bmCw) := by
    rw [h.cfg, h.bmCw hp]
  rw [bmClose, bmClose]
  dsimp only
  rw [hnibble]
  refine .ite (by rw [h.cfg]) (fun _ => .ite (by rw [h.bmHaveUpper]) (fun hu => ?_) fun _ => ?_)
    fun _ => { h with bmPos := rfl, bmCw := nofun }
  · have hcleared : SameMeaning { s with bmPos := .scan, bmHaveUpper := false }
        { t with bmPos := .scan, bmHaveUpper := false } :=
      { h with bmPos := rfl, bmCw := nofun, bmHaveUpper := rfl, bmUpper := nofun }
    have hbyte : ∀ n, assembleByte s.bmUpper n = assembleByte t.bmUpper n := fun n => by rw [h.bmUpper hu]
    rw [hbyte]
    exact faPushOp_congr hcleared _
  · exact { h with bmPos := rfl, bmCw := nofun, bmHaveUpper := rfl, bmUpper := fun _ => rfl }

theorem bmRxByteOp_congr (h : SameMeaning s t) (b : Byte) : SameOutcome (bmRxByteOp s b) (bmRxByteOp t b) := by
  rw [bmRxByteOp, bmRxByteOp, ← h.bmPos]
  cases hp : s.bmPos with
  | scan => exact bmScan_congr h b
  | cw => exact { h with bmPos := rfl, bmCw := fun _ => rfl }
  | close => exact bmClose_congr h hp b

theorem execBmRxTimeout_congr (h : SameMeaning s t) : SameOutcome (execBmRxTimeout s) (execBmRxTimeout t) := by
  have hpolicy : s.cfg.bmTimeoutPolicy = t.cfg.bmTimeoutPolicy := by rw [h.cfg]
  rw [execBmRxTimeout, execBmRxTimeout, hpolicy]
  cases t.cfg.bmTimeoutPolicy with
  | reset => exact { h with bmPos := rfl, bmCw := nofun, bmHaveUpper := rfl, bmUpper := nofun }
  | retain => exact h

theorem execCmdConnect_congr (h : SameMeaning s t) (r : Addr) :
    SameOutcome (execCmdConnect r s) (execCmdConnect r t) := by
  have hfind := h.find_eq r
  cases hf : s.find r with
  | some i =>
    obtain ⟨c, hc, -, -⟩ := State.find_eq_some hf
    rw [execCmdConnect_of_known hf, execCmdConnect_of_known (hfind ▸ hf), h.slotState_eq hc]
    exact h.raise _
  | none =>
    cases hj : s.free with
    | none =>
      rw [execCmdConnect_of_full hf hj, execCmdConnect_of_full (hfind ▸ hf) (h.free_eq ▸ hj)]
      exact h.raise _
    | some j =>
      obtain ⟨c, hc, hs⟩ := State.free_eq_some hj
      obtain ⟨d, hd, hcd⟩ := h.slot hc
      rw [execCmdConnect_of_free hf hj hc hs,
        execCmdConnect_of_free (hfind ▸ hf) (h.free_eq ▸ hj) hd (hcd.state_eq ▸ hs), h.ctlWire_eq, h.now]
      exact h.putSlot j (.refl _) _

theorem execCmdDisconnect_congr (h : SameMeaning s t) (r : Addr) :
    SameOutcome (execCmdDisconnect r s) (execCmdDisconnect r t) := by
  by_cases hst : s.cstate r = .connected
  · obtain ⟨i, c, hf, hc, hs, hlive⟩ := State.cstate_eq_connected hst
    obtain ⟨d, hd, hcd⟩ := h.slot hc
    rw [execCmdDisconnect_of_connected hf hc hs,
      execCmdDisconnect_of_connected (h.find_eq r ▸ hf) hd (hcd.state_eq ▸ hs), h.ctlWire_eq, h.now,
      hcd.remote_eq hlive]
    exact h.putSlot i (.refl _) _
  · rw [execCmdDisconnect_of_not_connected hst, execCmdDisconnect_of_not_connected (h.cstate_eq r ▸ hst)]
    exact h.raise _

theorem execCmdSend_congr (h : SameMeaning s t) (r : Addr) (payload : List Byte) :
    SameOutcome (execCmdSend r payload s) (execCmdSend r payload t) := by
  by_cases hst : s.cstate r = .connected
  · obtain ⟨i, c, hf, hc, hs, hlive⟩ := State.cstate_eq_connected hst
    obtain ⟨d, hd, hcd⟩ := h.slot hc
    have hslot : Slot.sameMeaning { c with lastActivity := t.now } { d with lastActivity := t.now } :=
      .of_eq hcd.state_eq (hcd.remote_eq hlive) rfl (by simp [hs])
    rw [execCmdSend_of_connected hf hc hs, execCmdSend_of_connected (h.find_eq r ▸ hf) hd (hcd.state_eq ▸ hs), h.now,
      h.cfg, h.localAddr]
    exact h.putSlot i hslot _
  · rw [execCmdSend_of_not_connected hst, execCmdSend_of_not_connected (h.cstate_eq r ▸ hst)]
    exact h.raise _

theorem execCmdAbort_congr (h : SameMeaning s t) (r : Addr) : SameOutcome (execCmdAbort r s) (execCmdAbort r t) := by
  cases hf : s.find r with
  | none =>
    rw [execCmdAbort_of_unknown hf, execCmdAbort_of_unknown (h.find_eq r ▸ hf)]
    exact h.output _
  | some i =>
    obtain ⟨c, hc, hlive, -⟩ := State.find_eq_some hf
    obtain ⟨d, hd, hcd⟩ := h.slot hc
    rw [execCmdAbort_of_live hf hc hlive, execCmdAbort_of_live (h.find_eq r ▸ hf) hd (hcd.live_eq ▸ hlive),
      hcd.remote_eq hlive, hcd.state_eq]
    exact h.putSlot i (.of_disconnected rfl rfl) _

theorem SameMeaning.tickSlot (h : SameMeaning s t) (i : Nat) : SameMeaning (tickSlot s i) (tickSlot t i) := by
  cases hc : s.conn[i]? with
  | none =>
    have hd : t.conn[i]? = none := by rwa [List.getElem?_eq_none_iff, ← h.size, ← List.getElem?_eq_none_iff]
    rw [tickSlot_of_none hc, tickSlot_of_none hd]
    exact h
  | some c =>
    obtain ⟨d, hd, hcd⟩ := h.slot hc
    obtain ⟨hslot, hos⟩ := tickCell_congr (i := i) h hcd
    rw [tickSlot_eq_tickCell hc, tickSlot_eq_tickCell hd, hos]
    exact h.putSlot i hslot _

theorem SameMeaning.tickSlots (h : SameMeaning s t) (is : List Nat) : SameMeaning (tickSlots is s) (tickSlots is t) := by
  induction is generalizing s t with
  | nil => exact h
  | cons i is ih => exact ih (h.tickSlot i)

/-- The seven events of 00_scope.md R14 answer alike. -/
theorem exec_agentEvent_congr {op : Instr} (ha : op.agentEvent = true) (h : SameMeaning s t) :
    SameOutcome (exec op s) (exec op t) := by
  cases op with
  | bmRxByte b => exact bmRxByteOp_congr h b
  | bmRxTimeout => exact execBmRxTimeout_congr h
  | cmdConnect r => exact execCmdConnect_congr h r
  | cmdDisconnect r => exact execCmdDisconnect_congr h r
  | cmdSend r payload => exact execCmdSend_congr h r payload
  | cmdAbort r => exact execCmdAbort_congr h r
  | tick =>
    rw [exec, exec, execTick, execTick, ← h.size]
    exact h.tickSlots _
  | _ => cases ha

/-- Reset keeps nothing but what is meaningful. -/
theorem SameMeaning.applyReset_eq (h : SameMeaning s t) (a : Addr) : s.applyReset a = t.applyReset a := by
  rw [State.applyReset, State.applyReset, h.cfg, h.time, h.inputs]

theorem takeInput_congr {inp : Input} (ha : inp.agentEvent = true) (h : SameMeaning s t) :
    SameOutcome (takeInput inp s) (takeInput inp t) := by
  cases inp with
  | rst a =>
    rw [takeInput, takeInput, h.applyReset_eq]
    exact .ite .rfl (fun _ => rfl) fun _ => .refl _
  | word p =>
    rw [takeInput, takeInput, ← h.cfg]
    cases hd : decode s.cfg p with
    | instr op => exact exec_agentEvent_congr (decode_agentEvent ha hd) h
    | noEvent => exact h
    | reject e => exact rfl

end Operations

/-- Settles O53: the check of the configuration and the choice of the event look at meaningful elements only, and the
events answer alike. -/
theorem meaninglessFieldsDoNotMatter : Obligations.MeaninglessFieldsDoNotMatter := by
  intro s t h ha
  rw [step, step, State.configOk, State.configOk, ← h.cfg, ← h.localAddr, ← h.inputs, ← h.time]
  refine .ite .rfl (fun _ => ?_) fun _ => rfl
  cases he : s.inputs with
  | nil => exact h
  | cons e rest =>
    have hhead : e.input.agentEvent = true := by
      rw [State.agentEventsOnly, he, List.all_cons, Bool.and_eq_true] at ha
      exact ha.1
    have htaking : SameMeaning (s.taking e rest) (t.taking e rest) := { h with time := rfl, inputs := rfl }
    exact .ite .rfl (fun _ => rfl) fun _ => takeInput_congr hhead htaking

end Sys2Proof.Machine

/-! The encoding family: the decoder inverts the encoder on well-formed operations (30_encoding.md R70 to R90), and reads
nothing but well-formed operations. First each format read back from what the encoder writes, in the order of the decoder;
then what each interface's decoder can read. -/

namespace Sys2Proof

open Machine

/-! ### Fields: addresses, types, lengths, codewords -/

theorem byteAddr_addrByte (a : Addr) : byteAddr (addrByte a) = a := by
  simp

theorem addrByte_lt (a : Addr) : (addrByte a).toNat < 0x80 := by
  rw [BitVec.toNat_setWidth_of_le (by decide)]
  exact a.isLt

theorem frameTypeOfCode_code (t : FrameType) : frameTypeOfCode t.code = some t := by
  cases t <;> rfl

theorem toFrame?_toRx (f : Frame) : f.toRx.toFrame? = some f := by
  have haddrs : f.toRx.receiver8.toNat < 0x80 ∧ f.toRx.sender8.toNat < 0x80 := ⟨addrByte_lt _, addrByte_lt _⟩
  have htype : frameTypeOfCode f.toRx.type8 = some f.type := frameTypeOfCode_code f.type
  rw [RxFrame.toFrame?, if_pos haddrs, htype]
  simp only [Frame.toRx, byteAddr_addrByte]

/-- LENGTH holds the length of a payload that a port can carry (30_encoding.md R78). -/
theorem toNat_lengthByte {payload : List Byte} (h : payload.length ≤ lengthMax) :
    (lengthByte payload).toNat = payload.length :=
  Nat.mod_eq_of_lt (Nat.lt_succ_of_le h)

theorem toNat_le_lengthMax (len : Byte) : len.toNat ≤ lengthMax := Nat.le_of_lt_succ len.isLt

/-- A run of bytes that a length byte counts off fits. -/
theorem length_take_le_lengthMax (len : Byte) (rest : List Byte) : (rest.take len.toNat).length ≤ lengthMax :=
  (List.length_take_le _ _).trans (toNat_le_lengthMax len)

theorem byteCodeword_codewordByte (c : Codeword) : byteCodeword (codewordByte c) = c := by
  simp

theorem codewordByte_lt (c : Codeword) : (codewordByte c).toNat < 128 := by
  rw [BitVec.toNat_setWidth_of_le (by decide)]
  exact c.isLt

/-- The data bits of a codeword are the nibble's, under either bit order. -/
theorem extractNibble_hencOp (o : NibbleBitOrder) (n : Nibble) : extractNibble o (hencOp o n) = n := by
  cases o <;> decide +revert

theorem extractNibble_cwb (o : NibbleBitOrder) (n : Nibble) : extractNibble o (byteCodeword (cwb o n)) = n := by
  rw [cwb, byteCodeword_codewordByte, extractNibble_hencOp]

theorem assembleByte_nibbles (b : Byte) : assembleByte (upperNibble b) (lowerNibble b) = b :=
  BitVec.extractLsb'_append_extractLsb'_eq_extractLsb' (x := b) rfl |>.trans b.extractLsb'_eq_self

/-! ### CW7 and BYTE2 words -/

theorem decodeHenc_cwb (cfg : Config) (n : Nibble) :
    decodeHenc cfg [cwb cfg.nibbleBitOrder n] = .instr (.henc n) := by
  simp only [decodeHenc, extractNibble_cwb, if_true]

theorem decodeHdec_codewordByte (c : Codeword) : decodeHdec [codewordByte c] = .instr (.hdec c) := by
  rw [decodeHdec, if_pos (codewordByte_lt c), byteCodeword_codewordByte]

theorem byteOfByte2_bmEncByte (cfg : Config) (b : Byte) : byteOfByte2 cfg (bmEncByte cfg b) = some b := by
  simp [byteOfByte2, bmEncByte, unitOf, extractNibble_cwb, assembleByte_nibbles]

theorem bytesOfByte2s_bmEncOp (cfg : Config) (bs : List Byte) : bytesOfByte2s cfg (bmEncOp cfg bs) = some bs := by
  induction bs with
  | nil => rfl
  | cons b bs ih =>
    have hhead := byteOfByte2_bmEncByte cfg b
    simp only [bmEncOp, bmEncByte, unitOf, List.cons_append, List.nil_append, List.flatMap_cons] at hhead ih ⊢
    rw [bytesOfByte2s, hhead, ih]

theorem decodeBmEnc_bmEncOp (cfg : Config) (bs : List Byte) : decodeBmEnc cfg (bmEncOp cfg bs) = .instr (.bmEnc bs) := by
  rw [decodeBmEnc, bytesOfByte2s_bmEncOp]

/-! ### FRAME words -/

/-- DESERIALIZE undoes SERIALIZE, whatever START and STOP are: the three tests of 44_frame_deserializer.md R150 pass. -/
theorem deserializeOp_serializeOp (cfg : Config) {f : Frame} (h : f.valid = true) :
    deserializeOp cfg (serializeOp cfg f) = .ok f.toRx := by
  have hlen : ((serializeOp cfg f).getD 4 0).toNat = f.payload.length := toNat_lengthByte (of_decide_eq_true h)
  have hlong : ¬ (serializeOp cfg f).length < frameOverhead := by simp [serializeOp, frameOverhead]
  have hends : ¬ ((serializeOp cfg f).getD 0 0 ≠ cfg.start ∨
      (serializeOp cfg f).getD ((serializeOp cfg f).length - 1) 0 ≠ cfg.stop) := by simp [serializeOp]
  have hcount : ¬ (serializeOp cfg f).length ≠ f.payload.length + frameOverhead := by
    simp [serializeOp, frameOverhead]
  have hpayload : ((serializeOp cfg f).drop 5).take f.payload.length = f.payload := by simp [serializeOp]
  simp only [deserializeOp, hlen, if_neg hlong, if_neg hends, if_neg hcount, hpayload]
  rfl

theorem decodeFrameOp_serializeOp (cfg : Config) (mk : Frame → Instr) {f : Frame} (h : f.valid = true) :
    decodeFrameOp cfg mk (serializeOp cfg f) = .instr (mk f) := by
  have hframe : frameOfBytes cfg (serializeOp cfg f) = some f := by
    rw [frameOfBytes, deserializeOp_serializeOp cfg h]
    exact toFrame?_toRx f
  rw [decodeFrameOp, hframe]

/-! ### Words of the command port -/

/-- The operation `cmd_op` selects for the peer `r` (30_encoding.md R84); `rest` is what is presented beside the word. -/
def commandOf (op : Nat) (r : Addr) (rest : List Byte) : Decoded :=
  match op with
  | 1 => .instr (.cmdConnect r)
  | 2 => .instr (.cmdDisconnect r)
  | 3 => decodeSend r rest
  | 4 => .instr (.cmdAbort r)
  | _ => .reject .reservedCommand

/-- A word written from `cmd_op` and `cmd_addr` is read back as them. -/
theorem decodeCmd_cmdWord {op : Nat} (h : op < 8) (r : Addr) (rest : List Byte) :
    decodeCmd (cmdWord op r ++ rest) = commandOf op r rest := by
  have hr : r.toNat < 128 := r.isLt
  have hhi : (BitVec.ofNat 8 (op / 2)).toNat = op / 2 := Nat.mod_eq_of_lt (by omega)
  have hlo : (BitVec.ofNat 8 (128 * (op % 2)) + addrByte r).toNat = 128 * (op % 2) + r.toNat := by
    simp; omega
  have hport : beyondTenBits (BitVec.ofNat 8 (op / 2)) = false := by
    rw [beyondTenBits, hhi, decide_eq_false_iff_not]; omega
  have hop : cmdOp (BitVec.ofNat 8 (op / 2)) (BitVec.ofNat 8 (128 * (op % 2)) + addrByte r) = op := by
    rw [cmdOp, hhi, hlo]; omega
  have haddr : byteAddr (BitVec.ofNat 8 (128 * (op % 2)) + addrByte r) = r := by
    apply BitVec.eq_of_toNat_eq
    rw [BitVec.toNat_setWidth, hlo]; omega
  simp only [cmdWord, List.cons_append, List.nil_append, decodeCmd, hport, hop, haddr]
  rfl

theorem decodeSend_lengthByte (r : Addr) {payload : List Byte} (h : payload.length ≤ lengthMax) :
    decodeSend r (lengthByte payload :: payload) = .instr (.cmdSend r payload) := by
  rw [decodeSend, if_pos (toNat_lengthByte h).symm]

/-! ### Operands of the internal steps -/

theorem decodeRxOperand_fields (p : Port) (mk : Byte → Byte → Byte → List Byte → Instr) (x y z : Byte)
    {payload : List Byte} (h : payload.length ≤ lengthMax) :
    decodeRxOperand p mk ([x, y, z, lengthByte payload] ++ payload) = .instr (mk x y z payload) :=
  if_pos (toNat_lengthByte h).symm

theorem withSlot_of_lt {cfg : Config} {i : Nat} (h : i < cfg.nConn) (d : Decoded) : withSlot cfg i d = d :=
  if_pos h

theorem decodeRxFrame_rxFrameBytes (cfg : Config) (i : Nat) {f : RxFrame} (h : f.sized = true) :
    decodeRxFrame i (rxFrameBytes cfg f) = .instr (handlerOf i f) := by
  have hlen : (lengthByte f.payload).toNat = f.payload.length := toNat_lengthByte (of_decide_eq_true h)
  simp [rxFrameBytes, decodeRxFrame, hlen]

/-- An inbound frame's bytes are read as the handler of its TYPE. -/
theorem decode_rxFrame {cfg : Config} {i : Nat} {f : RxFrame} {op : Instr} (hi : i < cfg.nConn) (hf : f.sized = true)
    (hop : handlerOf i f = op) : decode cfg ⟨.rxFrame, i, rxFrameBytes cfg f⟩ = .instr op := by
  exact (withSlot_of_lt hi _).trans ((decodeRxFrame_rxFrameBytes cfg i hf).trans (congrArg Decoded.instr hop))

/-- The reserved TYPE bytes are those that are no code of the five types (30_encoding.md R76). -/
theorem reservedType_iff (t : Byte) :
    reservedType t = true ↔
      t ≠ typeData ∧ t ≠ typeLink ∧ t ≠ typeUnlink ∧ t ≠ typeAck ∧ t ≠ typeRetryRequest := by
  simp only [reservedType, Bool.or_eq_true, decide_eq_true_eq]
  bv_omega

section Handlers

variable {f : RxFrame} (i : Nat)

theorem handlerOf_data (h : f.type8 = typeData) : handlerOf i f = .rxData i f := by simp [handlerOf, h]

theorem handlerOf_link (h : f.type8 = typeLink) : handlerOf i f = .rxLink i f := by simp [handlerOf, h]

theorem handlerOf_unlink (h : f.type8 = typeUnlink) : handlerOf i f = .rxUnlink i f := by simp [handlerOf, h]

theorem handlerOf_ack (h : f.type8 = typeAck) : handlerOf i f = .rxAck i f := by simp [handlerOf, h]

theorem handlerOf_retryRequest (h : f.type8 = typeRetryRequest) : handlerOf i f = .rxRetryRequest i f := by
  simp [handlerOf, h]

theorem handlerOf_reserved (h : reservedType f.type8 = true) : handlerOf i f = .rxReserved i f := by
  obtain ⟨hdata, hlink, hunlink, hack, hretry⟩ := (reservedType_iff f.type8).mp h
  simp only [handlerOf, if_neg hdata, if_neg hlink, if_neg hunlink, if_neg hack, if_neg hretry]

end Handlers

/-! ### The round trip -/

/-- A handler's operand in parts: the slot is there, the payload fits, the TYPE is the handler's. -/
theorem handler_operand {cfg : Config} {i : Nat} {f : RxFrame} {b : Bool}
    (h : (decide (i < cfg.nConn) && f.sized && b) = true) : i < cfg.nConn ∧ f.sized = true ∧ b = true := by
  simpa [and_assoc] using h

/-- Settles O57: each interface's decoder reads back what the encoder writes there; the bounds of a well-formed operand
are what the length byte and the slot index need. -/
theorem decodeInvertsEncode : Obligations.DecodeInvertsEncode := by
  intro cfg op h
  cases op with
  | henc n => exact decodeHenc_cwb cfg n
  | hdec c => exact decodeHdec_codewordByte c
  | bmEnc bs => exact decodeBmEnc_bmEncOp cfg bs
  | bmRxByte b => rfl
  | bmRxTimeout => rfl
  | serialize f => exact decodeFrameOp_serializeOp cfg .serialize h
  | emit f => exact decodeFrameOp_serializeOp cfg .emit h
  | deserialize buf => rfl
  | faPush d => rfl
  | accept f =>
    exact decodeRxOperand_fields .accept (fun x y z pl => .accept ⟨x, y, z, pl⟩) _ _ _ (of_decide_eq_true h)
  | route f =>
    exact decodeRxOperand_fields .route (fun x y z pl => .route ⟨y, x, z, pl⟩) _ _ _ (of_decide_eq_true h)
  | connRx i f =>
    obtain ⟨hi, hf⟩ := Bool.and_eq_true_iff.mp h
    exact (withSlot_of_lt (of_decide_eq_true hi) _).trans (decodeRxOperand_fields _ _ _ _ _ (of_decide_eq_true hf))
  | cmdConnect r => exact decodeCmd_cmdWord (op := 1) (by decide) r []
  | cmdDisconnect r => exact decodeCmd_cmdWord (op := 2) (by decide) r []
  | cmdSend r payload =>
    exact (decodeCmd_cmdWord (op := 3) (by decide) r _).trans (decodeSend_lengthByte r (of_decide_eq_true h))
  | cmdAbort r => exact decodeCmd_cmdWord (op := 4) (by decide) r []
  | rxData i f =>
    obtain ⟨hi, hf, ht⟩ := handler_operand h
    exact decode_rxFrame hi hf (handlerOf_data i (of_decide_eq_true ht))
  | rxLink i f =>
    obtain ⟨hi, hf, ht⟩ := handler_operand h
    exact decode_rxFrame hi hf (handlerOf_link i (of_decide_eq_true ht))
  | rxUnlink i f =>
    obtain ⟨hi, hf, ht⟩ := handler_operand h
    exact decode_rxFrame hi hf (handlerOf_unlink i (of_decide_eq_true ht))
  | rxAck i f =>
    obtain ⟨hi, hf, ht⟩ := handler_operand h
    exact decode_rxFrame hi hf (handlerOf_ack i (of_decide_eq_true ht))
  | rxRetryRequest i f =>
    obtain ⟨hi, hf, ht⟩ := handler_operand h
    exact decode_rxFrame hi hf (handlerOf_retryRequest i (of_decide_eq_true ht))
  | rxReserved i f =>
    obtain ⟨hi, hf, ht⟩ := handler_operand h
    exact decode_rxFrame hi hf (handlerOf_reserved i ht)
  | tick => rfl
  | retry i => exact withSlot_of_lt (of_decide_eq_true h) _
  | giveUp i => exact withSlot_of_lt (of_decide_eq_true h) _
  | idleDrop i => exact withSlot_of_lt (of_decide_eq_true h) _

/-! ### What each interface's decoder can read -/

/-- The operation that was read, if any, is well formed. -/
def Decoded.wellFormed (cfg : Config) : Decoded → Prop
  | .instr op => op.wellFormed cfg = true
  | .noEvent => True
  | .reject _ => True

theorem Decoded.wellFormed_iff {cfg : Config} {d : Decoded} :
    d.wellFormed cfg ↔ ∀ op, d = .instr op → op.wellFormed cfg = true := by
  cases d <;> simp [Decoded.wellFormed]

section Decoders

variable (cfg : Config)

theorem decodeRxp_wellFormed (bits : List Byte) : (decodeRxp bits).wellFormed cfg := by
  unfold decodeRxp
  split
  · split_ifs
    · trivial
    · rfl
    · rfl
    · trivial
  · trivial

/-- `cmd_len` is a byte, so the payload it counts fits. -/
theorem decodeSend_wellFormed (r : Addr) (bits : List Byte) : (decodeSend r bits).wellFormed cfg := by
  unfold decodeSend
  split
  · trivial
  · next len payload =>
    split
    · next hlen => exact decide_eq_true (hlen ▸ toNat_le_lengthMax len)
    · trivial

theorem decodeCmd_wellFormed (bits : List Byte) : (decodeCmd bits).wellFormed cfg := by
  unfold decodeCmd
  split
  · split
    · trivial
    · split
      · rfl
      · rfl
      · exact decodeSend_wellFormed cfg _ _
      · rfl
      · trivial
  · trivial

theorem decodeTick_wellFormed (bits : List Byte) : (decodeTick bits).wellFormed cfg := by
  unfold decodeTick
  split
  · split_ifs
    · rfl
    · trivial
    · trivial
  · trivial

theorem decodeHenc_wellFormed (bits : List Byte) : (decodeHenc cfg bits).wellFormed cfg := by
  unfold decodeHenc
  split
  · dsimp only
    split
    · rfl
    · trivial
  · trivial

theorem decodeHdec_wellFormed (bits : List Byte) : (decodeHdec bits).wellFormed cfg := by
  unfold decodeHdec
  split
  · split
    · rfl
    · trivial
  · trivial

theorem decodeBmEnc_wellFormed (bits : List Byte) : (decodeBmEnc cfg bits).wellFormed cfg := by
  unfold decodeBmEnc
  split
  · rfl
  · trivial

theorem decodeFaPush_wellFormed (bits : List Byte) : (decodeFaPush bits).wellFormed cfg := by
  unfold decodeFaPush
  split
  · rfl
  · trivial

variable {cfg}

/-- LENGTH is a byte, so the payload that DESERIALIZE returns fits. -/
theorem deserializeOp_sized {bits : List Byte} {rx : RxFrame} (h : deserializeOp cfg bits = .ok rx) :
    rx.sized = true := by
  simp only [deserializeOp] at h
  split_ifs at h
  obtain rfl := Deserialized.ok.inj h
  exact decide_eq_true (length_take_le_lengthMax _ _)

theorem toFrame?_payload {rx : RxFrame} {f : Frame} (h : rx.toFrame? = some f) : f.payload = rx.payload := by
  unfold RxFrame.toFrame? at h
  split at h
  · split at h
    · obtain rfl := Option.some.inj h
      rfl
    · cases h
  · cases h

theorem frameOfBytes_valid {bits : List Byte} {f : Frame} (h : frameOfBytes cfg bits = some f) : f.valid = true := by
  unfold frameOfBytes at h
  split at h
  · next rx hrx =>
    rw [Frame.valid, toFrame?_payload h]
    exact deserializeOp_sized hrx
  · cases h

theorem decodeFrameOp_wellFormed {mk : Frame → Instr} (hmk : ∀ f, f.valid = true → (mk f).wellFormed cfg = true)
    (bits : List Byte) : (decodeFrameOp cfg mk bits).wellFormed cfg := by
  unfold decodeFrameOp
  split
  · next f hf => exact hmk f (frameOfBytes_valid hf)
  · trivial

theorem decodeRxOperand_wellFormed {p : Port} {mk : Byte → Byte → Byte → List Byte → Instr}
    (hmk : ∀ x y z payload, payload.length ≤ lengthMax → (mk x y z payload).wellFormed cfg = true) (bits : List Byte) :
    (decodeRxOperand p mk bits).wellFormed cfg := by
  unfold decodeRxOperand
  split
  · next x y z len payload =>
    split
    · next hlen => exact hmk x y z payload (hlen ▸ toNat_le_lengthMax len)
    · trivial
  · trivial

/-- The handler a TYPE selects is the one its operand is well formed for. -/
theorem handlerOf_wellFormed {i : Nat} {f : RxFrame} (hi : i < cfg.nConn) (hf : f.sized = true) :
    (handlerOf i f).wellFormed cfg = true := by
  unfold handlerOf
  split_ifs with hdata hlink hunlink hack hretry
  · simp [Instr.wellFormed, hi, hf, hdata]
  · simp [Instr.wellFormed, hi, hf, hlink]
  · simp [Instr.wellFormed, hi, hf, hunlink]
  · simp [Instr.wellFormed, hi, hf, hack]
  · simp [Instr.wellFormed, hi, hf, hretry]
  · simp [Instr.wellFormed, hi, hf, (reservedType_iff f.type8).mpr ⟨hdata, hlink, hunlink, hack, hretry⟩]

theorem decodeRxFrame_wellFormed {i : Nat} (hi : i < cfg.nConn) (bits : List Byte) :
    (decodeRxFrame i bits).wellFormed cfg := by
  unfold decodeRxFrame
  split
  · next r t ty len rest =>
    split
    · exact handlerOf_wellFormed hi (decide_eq_true (length_take_le_lengthMax len rest))
    · trivial
  · trivial

theorem decodeSlotAction_wellFormed {p : Port} {op : Instr} (h : op.wellFormed cfg = true) (bits : List Byte) :
    (decodeSlotAction p op bits).wellFormed cfg := by
  unfold decodeSlotAction
  split
  · exact h
  · trivial

/-- Behind the test of the slot index, the slot is there. -/
theorem withSlot_wellFormed {i : Nat} {d : Decoded} (h : i < cfg.nConn → d.wellFormed cfg) :
    (withSlot cfg i d).wellFormed cfg := by
  unfold withSlot
  split
  · next hi => exact h hi
  · trivial

end Decoders

theorem decode_wellFormed (cfg : Config) (p : Presented) : (decode cfg p).wellFormed cfg := by
  obtain ⟨port, i, bits⟩ := p
  cases port with
  | rxp => exact decodeRxp_wellFormed cfg bits
  | cmd => exact decodeCmd_wellFormed cfg bits
  | tick => exact decodeTick_wellFormed cfg bits
  | henc => exact decodeHenc_wellFormed cfg bits
  | hdec => exact decodeHdec_wellFormed cfg bits
  | bmEnc => exact decodeBmEnc_wellFormed cfg bits
  | serialize => exact decodeFrameOp_wellFormed (mk := .serialize) (fun _ hf => hf) bits
  | emit => exact decodeFrameOp_wellFormed (mk := .emit) (fun _ hf => hf) bits
  | deserialize => rfl
  | faPush => exact decodeFaPush_wellFormed cfg bits
  | accept =>
    refine decodeRxOperand_wellFormed (fun _ _ _ _ hlen => ?_) bits
    exact decide_eq_true hlen
  | route =>
    refine decodeRxOperand_wellFormed (fun _ _ _ _ hlen => ?_) bits
    exact decide_eq_true hlen
  | connRx =>
    refine withSlot_wellFormed fun hi => decodeRxOperand_wellFormed (fun _ _ _ _ hlen => ?_) bits
    exact Bool.and_eq_true_iff.mpr ⟨decide_eq_true hi, decide_eq_true hlen⟩
  | rxFrame => exact withSlot_wellFormed fun hi => decodeRxFrame_wellFormed hi bits
  | retry => exact withSlot_wellFormed fun hi => decodeSlotAction_wellFormed (op := .retry i) (decide_eq_true hi) bits
  | giveUp => exact withSlot_wellFormed fun hi => decodeSlotAction_wellFormed (op := .giveUp i) (decide_eq_true hi) bits
  | idleDrop => exact withSlot_wellFormed fun hi => decodeSlotAction_wellFormed (op := .idleDrop i) (decide_eq_true hi) bits

/-- Settles O58: no interface's decoder reads an operation that is not well formed. -/
theorem decodedOperationsAreWellFormed : Obligations.DecodedOperationsAreWellFormed :=
  fun cfg p => Decoded.wellFormed_iff.mp (decode_wellFormed cfg p)

end Sys2Proof

/-! The line-code family: HENC as the printed table (40_hamming_encoder.md R101), the parity equations (R100) and the
properties of the code (R102); last the words the spec prints. The code's properties rest on linearity, which makes a
distance a weight, and on the error position, which is 0 on a codeword and names the bit after one flip. -/

namespace Sys2Proof

open Machine Terms

/-! ### HENC as an operation -/

/-- HENC hands its codeword to the caller and writes nothing else. -/
theorem exec_henc (n : Nibble) (s : State) :
    exec (.henc n) s = .next (s.ret (.codeword (hencOp s.cfg.nibbleBitOrder n))) := rfl

/-- The function HENC is the column of R101 for the bit order. -/
theorem hencOp_eq_table (o : NibbleBitOrder) (n : Nibble) : hencOp o n = (hencTable o).getD n.toNat 0 := by
  cases o <;> decide +revert

/-- Each column of R101 lists the codewords of the other. -/
theorem mem_hencLsb_iff_mem_hencMsb (c : Codeword) : c ∈ hencLsb ↔ c ∈ hencMsb := by
  have hsub : hencLsb ⊆ hencMsb := by decide
  have hsup : hencMsb ⊆ hencLsb := by decide
  exact ⟨@hsub c, @hsup c⟩

/-- Settles O1: HENC returns `hencOp`, which is the printed column under either bit order. -/
theorem hencGivesTable : Obligations.HencGivesTable := by
  refine ⟨fun s n => ?_, mem_hencLsb_iff_mem_hencMsb⟩
  rw [exec_henc, hencOp_eq_table]
  rfl

/-! ### The bits of a codeword -/

theorem hencOp_of_dataBits {o : NibbleBitOrder} {n : Nibble} {d1 d2 d3 d4 : Bool}
    (h : dataBits o n = (d1, d2, d3, d4)) : hencOp o n = codewordOfDataBits d1 d2 d3 d4 := by
  rw [hencOp, h]

/-- Layout CW7 read bit by bit: `p1, p2, d1, p3, d2, d3, d4` from bit 0 up. -/
theorem codewordOfDataBits_bits (d1 d2 d3 d4 : Bool) :
    (codewordOfDataBits d1 d2 d3 d4).getLsbD 0 = (d1 ^^ d2 ^^ d4) ∧
    (codewordOfDataBits d1 d2 d3 d4).getLsbD 1 = (d1 ^^ d3 ^^ d4) ∧
    (codewordOfDataBits d1 d2 d3 d4).getLsbD 2 = d1 ∧
    (codewordOfDataBits d1 d2 d3 d4).getLsbD 3 = (d2 ^^ d3 ^^ d4) ∧
    (codewordOfDataBits d1 d2 d3 d4).getLsbD 4 = d2 ∧
    (codewordOfDataBits d1 d2 d3 d4).getLsbD 5 = d3 ∧
    (codewordOfDataBits d1 d2 d3 d4).getLsbD 6 = d4 := by
  simp only [codewordOfDataBits, BitVec.getLsbD_append]
  simp

/-- Settles O2: the hypotheses say that `d1` to `d4` are the nibble's data bits, so the codeword is theirs. -/
theorem hencFollowsParityEquations : Obligations.HencFollowsParityEquations := by
  intro s n d1 d2 d3 d4 hlsb hmsb
  have hbits : dataBits s.cfg.nibbleBitOrder n = (d1, d2, d3, d4) := by
    cases ho : s.cfg.nibbleBitOrder with
    | lsbFirst =>
      obtain ⟨rfl, rfl, rfl, rfl⟩ := hlsb ho
      rfl
    | msbFirst =>
      obtain ⟨rfl, rfl, rfl, rfl⟩ := hmsb ho
      rfl
  refine ⟨codewordOfDataBits d1 d2 d3 d4, ?_, codewordOfDataBits_bits d1 d2 d3 d4⟩
  rw [exec_henc, hencOp_of_dataBits hbits]
  rfl

/-! ### Linearity and distance -/

theorem hencOp_injective (o : NibbleBitOrder) : Function.Injective (hencOp o) :=
  Function.LeftInverse.injective (extractNibble_hencOp o)

theorem codewordOfDataBits_xor (a1 a2 a3 a4 b1 b2 b3 b4 : Bool) :
    codewordOfDataBits (a1 ^^ b1) (a2 ^^ b2) (a3 ^^ b3) (a4 ^^ b4) =
      codewordOfDataBits a1 a2 a3 a4 ^^^ codewordOfDataBits b1 b2 b3 b4 := by
  ext k hk
  simp only [← BitVec.getLsbD_eq_getElem, BitVec.getLsbD_xor]
  interval_cases k <;> simp only [codewordOfDataBits_bits, Bool.xor_assoc, Bool.xor_left_comm]

theorem hencOp_xor (o : NibbleBitOrder) (a b : Nibble) : hencOp o (a ^^^ b) = hencOp o a ^^^ hencOp o b := by
  cases o with
  | lsbFirst => simp only [hencOp, dataBits, BitVec.getLsbD_xor, codewordOfDataBits_xor]
  | msbFirst => simp only [hencOp, dataBits, BitVec.getLsbD_xor, codewordOfDataBits_xor]

/-- The distance of two codewords is the weight of their exclusive-or. -/
theorem distance_eq_distance_xor_zero (a b : Codeword) : distance a b = distance (a ^^^ b) 0 := by
  simp [distance]

/-- The codeword of a nibble other than 0 has at least three bits set. -/
theorem three_le_distance_hencOp_zero (o : NibbleBitOrder) (n : Nibble) (h : n ≠ 0) :
    3 ≤ distance (hencOp o n) 0 := by
  cases o <;> decide +revert

theorem three_le_distance_hencOp (o : NibbleBitOrder) {a b : Nibble} (h : a ≠ b) :
    3 ≤ distance (hencOp o a) (hencOp o b) := by
  have hne : a ^^^ b ≠ 0 := fun h0 => h (BitVec.xor_eq_zero_iff.mp h0)
  rw [distance_eq_distance_xor_zero, ← hencOp_xor]
  exact three_le_distance_hencOp_zero o _ hne

/-- The minimum distance is attained: the nibble 0x2 has a codeword of weight 3 under either bit order. -/
theorem distance_hencOp_two_zero (o : NibbleBitOrder) : distance (hencOp o 0x2) (hencOp o 0x0) = 3 := by
  cases o <;> decide

/-! ### HDEC on a codeword, undamaged or with one flipped bit -/

theorem flipBit_flipBit (c : Codeword) (p : Nat) : flipBit (flipBit c p) p = c := by
  simp [flipBit]

/-- The three parity checks hold on a codeword (41_hamming_decoder.md R111). -/
theorem errorPosition_hencOp (o : NibbleBitOrder) (v : Nibble) : errorPosition (hencOp o v) = 0 := by
  cases o <;> decide +revert

/-- After one flip the parity checks that fail spell the flipped bit's position (41_hamming_decoder.md R111). -/
theorem errorPosition_flipBit_hencOp (o : NibbleBitOrder) (v : Nibble) (p : Fin 7) :
    errorPosition (flipBit (hencOp o v) p.val) = p.val + 1 := by
  cases o <;> decide +revert

theorem corrected_hencOp (o : NibbleBitOrder) (v : Nibble) : corrected (hencOp o v) = hencOp o v :=
  if_pos (errorPosition_hencOp o v)

theorem corrected_flipBit_hencOp (o : NibbleBitOrder) (v : Nibble) (p : Fin 7) :
    corrected (flipBit (hencOp o v) p.val) = hencOp o v := by
  rw [corrected, errorPosition_flipBit_hencOp, if_neg (Nat.succ_ne_zero _), Nat.add_sub_cancel, flipBit_flipBit]

theorem hdecOp_hencOp (o : NibbleBitOrder) (v : Nibble) : hdecOp o (hencOp o v) = v := by
  rw [hdecOp, corrected_hencOp, extractNibble_hencOp]

theorem hdecOp_flipBit_hencOp (o : NibbleBitOrder) (v : Nibble) (p : Fin 7) :
    hdecOp o (flipBit (hencOp o v) p.val) = v := by
  rw [hdecOp, corrected_flipBit_hencOp, extractNibble_hencOp]

/-- Settles O5: injective by its left inverse, of minimum distance 3 by linearity and the weights, undone by HDEC by the
error position. -/
theorem hencIsALinearDistanceThreeCode : Obligations.HencIsALinearDistanceThreeCode := fun o =>
  ⟨fun _ _ h => hencOp_injective o h, hencOp_xor o, fun _ _ h => three_le_distance_hencOp o h,
    ⟨0x2, 0x0, distance_hencOp_two_zero o⟩, hdecOp_hencOp o, hdecOp_flipBit_hencOp o,
    fun n => codewordByte_lt (hencOp o n)⟩

/-! ### The words the spec prints -/

/-- A word that the encoder writes for a well-formed operation is read as that operation. -/
theorem decode_of_encode_eq {cfg : Config} {op : Instr} {p : Presented} (hop : op.wellFormed cfg = true)
    (hp : encode cfg op = p) : decode cfg p = .instr op :=
  hp ▸ decodeInvertsEncode cfg op hop

/-- Settles O60: each printed word is what the encoder writes for its operation, and the operations are well formed. -/
theorem printedWordsDecode : Obligations.PrintedWordsDecode :=
  ⟨decode_of_encode_eq rfl (by decide), decode_of_encode_eq rfl (by decide), decode_of_encode_eq rfl (by decide),
    decode_of_encode_eq rfl (by decide), decode_of_encode_eq rfl (by decide)⟩

end Sys2Proof

/-! The decoder family: HDEC as the printed table (41_hamming_decoder.md R114) and the decoder of the nearest codeword
(R112). Correction turns every 7-bit value into the codeword of its decoded nibble, and a value at distance at most 1
from a codeword is that codeword, undamaged or with one flipped bit. -/

namespace Sys2Proof

open Machine Terms

/-! ### HDEC as an operation -/

/-- HDEC hands its nibble to the caller and writes nothing else. -/
theorem exec_hdec (c : Codeword) (s : State) :
    exec (.hdec c) s = .next (s.ret (.nibble (hdecOp s.cfg.nibbleBitOrder c))) := rfl

theorem nibbleOfDataBits_msbFirst (d1 d2 d3 d4 : Bool) :
    nibbleOfDataBits .msbFirst d1 d2 d3 d4 = reverseNibble (nibbleOfDataBits .lsbFirst d1 d2 d3 d4) := by
  decide +revert

/-- Correction does not look at the bit order, so the orders differ in the reading of the data bits only. -/
theorem hdecOp_msbFirst (c : Codeword) : hdecOp .msbFirst c = reverseNibble (hdecOp .lsbFirst c) :=
  nibbleOfDataBits_msbFirst _ _ _ _

theorem hdecOp_lsbFirst_eq_table (c : Codeword) : hdecOp .lsbFirst c = (hdecCell c).1 := by
  decide +revert

theorem hdecOp_eq_table (o : NibbleBitOrder) (c : Codeword) : hdecOp o c = hdecNibble o c := by
  cases o with
  | lsbFirst => exact hdecOp_lsbFirst_eq_table c
  | msbFirst => rw [hdecOp_msbFirst, hdecOp_lsbFirst_eq_table, hdecNibble]

theorem errorPosition_eq_table (c : Codeword) : errorPosition c = (hdecCell c).2 := by
  decide +revert

/-- Bit 7 of a received byte is dropped (30_encoding.md R72). -/
theorem byteCodeword_bit7_add (c : Codeword) : byteCodeword (0x80 + codewordByte c) = c := by
  have hsum : byteCodeword (0x80 + codewordByte c) = byteCodeword 0x80 + byteCodeword (codewordByte c) :=
    BitVec.setWidth_add _ _ (by decide)
  have hbit7 : byteCodeword 0x80 = 0 := by decide
  rw [hsum, hbit7, byteCodeword_codewordByte]
  exact BitVec.zero_add c

/-- Settles O3: HDEC returns `hdecOp`, which is the printed table read under either bit order. -/
theorem hdecGivesTable : Obligations.HdecGivesTable := by
  refine ⟨fun s c => ?_, errorPosition_eq_table, byteCodeword_bit7_add⟩
  rw [exec_hdec, hdecOp_eq_table]
  rfl

/-! ### Values at distance at most 1 -/

theorem xor_eq_iff_eq_flipBit (c d : Codeword) (p : Nat) : c ^^^ d = 1#7 <<< p ↔ c = flipBit d p := by
  rw [flipBit, BitVec.xor_comm d, ← BitVec.xor_left_inj d, BitVec.xor_assoc, BitVec.xor_self, BitVec.xor_zero]

/-- A weight is at most 1 when at most one bit is set. -/
theorem distance_zero_le_one_iff (x : Codeword) :
    distance x 0 ≤ 1 ↔ x = 0 ∨ ∃ p : Fin 7, x = 1#7 <<< p.val := by
  decide +revert

theorem distance_le_one_iff (c d : Codeword) : distance c d ≤ 1 ↔ c = d ∨ ∃ p : Fin 7, c = flipBit d p.val := by
  simp only [distance_eq_distance_xor_zero c d, distance_zero_le_one_iff, xor_eq_iff_eq_flipBit]
  exact or_congr_left BitVec.xor_eq_zero_iff

/-! ### HDEC finds the nearest codeword -/

theorem errorPosition_le_seven (c : Codeword) : errorPosition c ≤ 7 := by
  decide +revert

/-- After the flip every parity check holds (41_hamming_decoder.md R111). -/
theorem errorPosition_corrected (c : Codeword) : errorPosition (corrected c) = 0 := by
  decide +revert

/-- A value on which every parity check holds is the codeword of its data bits. -/
theorem hencOp_extractNibble (o : NibbleBitOrder) (c : Codeword) (h : errorPosition c = 0) :
    hencOp o (extractNibble o c) = c := by
  cases o <;> decide +revert

/-- Correction gives the codeword of the decoded nibble. -/
theorem hencOp_hdecOp (o : NibbleBitOrder) (c : Codeword) : hencOp o (hdecOp o c) = corrected c :=
  hencOp_extractNibble o (corrected c) (errorPosition_corrected c)

theorem distance_corrected_le_one (c : Codeword) : distance c (corrected c) ≤ 1 := by
  rw [distance_le_one_iff, corrected]
  by_cases hpos : errorPosition c = 0
  · exact .inl (if_pos hpos).symm
  · have hp : errorPosition c - 1 < 7 := Nat.sub_one_lt_of_le (Nat.pos_of_ne_zero hpos) (errorPosition_le_seven c)
    exact .inr ⟨⟨_, hp⟩, by rw [if_neg hpos, flipBit_flipBit]⟩

/-- A value at distance at most 1 from a codeword decodes to the codeword's nibble. -/
theorem hdecOp_of_distance_le_one {o : NibbleBitOrder} {c : Codeword} {v : Nibble}
    (h : distance c (hencOp o v) ≤ 1) : hdecOp o c = v := by
  obtain rfl | ⟨p, rfl⟩ := (distance_le_one_iff _ _).mp h
  · exact hdecOp_hencOp o v
  · exact hdecOp_flipBit_hencOp o v p

theorem distance_hencOp_hdecOp_le_one (o : NibbleBitOrder) (c : Codeword) :
    distance c (hencOp o (hdecOp o c)) ≤ 1 := by
  rw [hencOp_hdecOp]
  exact distance_corrected_le_one c

/-- Settles O4: no flip and one flip by the error position; the nearest codeword is the corrected value. -/
theorem hammingCorrectsOneFlip : Obligations.HammingCorrectsOneFlip := fun o =>
  ⟨fun v => ⟨hdecOp_hencOp o v, errorPosition_hencOp o v⟩,
    fun v p => ⟨hdecOp_flipBit_hencOp o v p, errorPosition_flipBit_hencOp o v p⟩,
    fun c => ⟨distance_hencOp_hdecOp_le_one o c, fun _ h => (hdecOp_of_distance_le_one h).symm⟩⟩

end Sys2Proof

/-! The byte marker family: the framer's groups of six wire bytes (42_byte_marker_codec.md R120, R121), the deframer's
steps (R122 to R125), and what runs of units do to it (R127, R128). A run is taken apart into units: from SCAN a unit
yields its nibble, from CW (one byte late) it yields nothing. -/

namespace Sys2Proof.Machine

open Terms

/-! ### The framer -/

/-- BM_ENC hands its wire bytes to the caller and writes nothing else. -/
theorem exec_bmEnc (bs : List Byte) (s : State) : exec (.bmEnc bs) s = .next (s.ret (.wire (bmEncOp s.cfg bs))) := rfl

theorem bmEncOp_cons (cfg : Config) (b : Byte) (bs : List Byte) :
    bmEncOp cfg (b :: bs) = bmEncByte cfg b ++ bmEncOp cfg bs :=
  List.flatMap_cons

theorem length_bmEncByte (cfg : Config) (b : Byte) : (bmEncByte cfg b).length = 6 := rfl

theorem length_bmEncOp (cfg : Config) (bs : List Byte) : (bmEncOp cfg bs).length = 6 * bs.length := by
  induction bs with
  | nil => rfl
  | cons b bs ih =>
    rw [bmEncOp_cons, List.length_append, ih, length_bmEncByte, List.length_cons, Nat.mul_succ, Nat.add_comm]

/-- The `k`-th group of six wire bytes is the `k`-th byte's. -/
theorem group_bmEncOp (cfg : Config) {bs : List Byte} {k : Nat} (hk : k < bs.length) :
    ((bmEncOp cfg bs).drop (6 * k)).take 6 = bmEncByte cfg (bs.getD k 0) := by
  induction bs generalizing k with
  | nil => exact absurd hk (Nat.not_lt_zero k)
  | cons b bs ih =>
    rw [bmEncOp_cons]
    cases k with
    | zero => exact List.take_left' rfl
    | succ k =>
      have hdrop : (bmEncByte cfg b ++ bmEncOp cfg bs).drop (6 * (k + 1)) = (bmEncOp cfg bs).drop (6 * k) := by
        rw [Nat.mul_succ, Nat.add_comm, ← List.drop_drop, List.drop_left' (length_bmEncByte cfg b)]
      rw [hdrop]
      exact ih (Nat.lt_of_succ_lt_succ hk)

/-- Settles O6, by induction on the bytes for the length and for the groups. -/
theorem bmEncGivesTwoUnitsPerByte : Obligations.BmEncGivesTwoUnitsPerByte := fun s bs =>
  ⟨bmEncOp s.cfg bs, exec_bmEnc bs s, length_bmEncOp s.cfg bs, fun _ hk => group_bmEncOp s.cfg hk⟩

/-! ### One step of the deframer -/

section DeframerStep

variable {s : State} {b : Byte}

/-! The position picks the step (42_byte_marker_codec.md R126). -/

theorem exec_bmRxByte_scan (hp : s.bmPos = .scan) (b : Byte) : exec (.bmRxByte b) s = bmScan s b := by
  change bmRxByteOp s b = _
  rw [bmRxByteOp, hp]

theorem exec_bmRxByte_close (hp : s.bmPos = .close) (b : Byte) : exec (.bmRxByte b) s = bmClose s b := by
  change bmRxByteOp s b = _
  rw [bmRxByteOp, hp]

/-- The byte after an opening MARKER is the codeword byte, whatever it is (42_byte_marker_codec.md R123). -/
theorem exec_bmRxByte_cw (hp : s.bmPos = .cw) (b : Byte) :
    exec (.bmRxByte b) s = .next { s with bmCw := b, bmPos := .close } := by
  change bmRxByteOp s b = _
  rw [bmRxByteOp, hp]
  rfl

/-- A unit is opened (42_byte_marker_codec.md R122). -/
theorem exec_bmRxByte_scan_marker (hp : s.bmPos = .scan) (hb : b = s.cfg.marker) :
    exec (.bmRxByte b) s = .next { s with bmPos := .cw } :=
  (exec_bmRxByte_scan hp b).trans (if_pos hb)

/-- A byte between units is skipped (42_byte_marker_codec.md R122). -/
theorem exec_bmRxByte_scan_other (hp : s.bmPos = .scan) (hb : b ≠ s.cfg.marker) : exec (.bmRxByte b) s = .next s :=
  (exec_bmRxByte_scan hp b).trans (if_neg hb)

/-- A bad unit is dropped; a collected upper nibble stays (42_byte_marker_codec.md R124). -/
theorem exec_bmRxByte_close_other (hp : s.bmPos = .close) (hb : b ≠ s.cfg.marker) :
    exec (.bmRxByte b) s = .next { s with bmPos := .scan } :=
  (exec_bmRxByte_close hp b).trans (if_neg hb)

/-- The first good unit of a pair gives the upper nibble (42_byte_marker_codec.md R124). -/
theorem exec_bmRxByte_close_upper (hp : s.bmPos = .close) (hb : b = s.cfg.marker) (hu : s.bmHaveUpper = false) :
    exec (.bmRxByte b) s =
      .next { s with bmPos := .scan, bmHaveUpper := true,
                     bmUpper := hdecOp s.cfg.nibbleBitOrder (byteCodeword s.bmCw) } := by
  rw [exec_bmRxByte_close hp, bmClose, if_pos hb]
  exact if_neg (by rw [hu]; exact Bool.false_ne_true)

/-- The second good unit of a pair completes a byte (42_byte_marker_codec.md R124). -/
theorem exec_bmRxByte_close_lower (hp : s.bmPos = .close) (hb : b = s.cfg.marker) (hu : s.bmHaveUpper = true) :
    exec (.bmRxByte b) s =
      exec (.faPush (assembleByte s.bmUpper (hdecOp s.cfg.nibbleBitOrder (byteCodeword s.bmCw))))
        { s with bmPos := .scan, bmHaveUpper := false } := by
  rw [exec_bmRxByte_close hp, bmClose, if_pos hb]
  exact if_pos hu

end DeframerStep

/-- Settles O7: MARKER opens a unit, any other byte is skipped. -/
theorem deframerScansForMarker : Obligations.DeframerScansForMarker := fun _ _ hp =>
  ⟨exec_bmRxByte_scan_marker hp, exec_bmRxByte_scan_other hp⟩

/-- Settles O8: the step in CW does not look at the byte. -/
theorem deframerTakesCodewordByte : Obligations.DeframerTakesCodewordByte := fun _ b hp => exec_bmRxByte_cw hp b

/-- Settles O9, one rule of END for each clause. -/
theorem deframerClosesUnit : Obligations.DeframerClosesUnit := fun _ _ hp =>
  ⟨exec_bmRxByte_close_other hp, exec_bmRxByte_close_upper hp, exec_bmRxByte_close_lower hp⟩

/-! ### The read timeout -/

section ReadTimeout

variable {s : State}

theorem exec_bmRxTimeout_reset (hc : s.cfg.bmTimeoutPolicy = .reset) :
    exec .bmRxTimeout s = .next { s with bmPos := .scan, bmHaveUpper := false } := by
  change execBmRxTimeout s = _
  rw [execBmRxTimeout, hc]

theorem exec_bmRxTimeout_retain (hc : s.cfg.bmTimeoutPolicy = .retain) : exec .bmRxTimeout s = .next s := by
  change execBmRxTimeout s = _
  rw [execBmRxTimeout, hc]

end ReadTimeout

/-- Settles O10: the two policies by their rules; under `reset` the first timeout leaves what the second one would
write, under `retain` neither writes. -/
theorem deframerReadTimeout : Obligations.DeframerReadTimeout := by
  refine fun s => ⟨exec_bmRxTimeout_reset, exec_bmRxTimeout_retain, fun t h => ?_⟩
  cases hc : s.cfg.bmTimeoutPolicy with
  | reset =>
    rw [exec_bmRxTimeout_reset hc] at h
    cases h
    exact exec_bmRxTimeout_reset hc
  | retain =>
    rw [exec_bmRxTimeout_retain hc] at h
    cases h
    exact exec_bmRxTimeout_retain hc

/-! ### One unit, from SCAN -/

section OneUnit

variable {s : State} {m : Byte}

theorem feed_opening (hm : m = s.cfg.marker) (hp : s.bmPos = .scan) (x : Byte) :
    feed [m, x] s = .next { s with bmPos := .close, bmCw := x } := by
  simp only [feed, exec_bmRxByte_scan_marker hp hm, exec_bmRxByte_cw, andThen_next]

/-- A unit is its opening and the closing MARKER. -/
theorem feed_unit (hm : m = s.cfg.marker) (hp : s.bmPos = .scan) (x : Byte) :
    feed [m, x, m] s = exec (.bmRxByte m) { s with bmPos := .close, bmCw := x } := by
  change feed ([m, x] ++ [m]) s = _
  rw [feed_append, feed_opening hm hp, andThen_next]
  exact andThen_pure _

/-- A whole unit with no nibble pending: the decoded nibble is the upper one. -/
theorem feed_upper_unit (hm : m = s.cfg.marker) (hp : s.bmPos = .scan) (hu : s.bmHaveUpper = false) (x : Byte) :
    feed [m, x, m] s =
      .next { s with bmCw := x, bmHaveUpper := true,
                     bmUpper := hdecOp s.cfg.nibbleBitOrder (byteCodeword x) } := by
  rw [feed_unit hm hp, hp]
  exact exec_bmRxByte_close_upper rfl hm hu

/-- A whole unit with an upper nibble pending: the byte of the two goes to FA_PUSH. -/
theorem feed_lower_unit (hm : m = s.cfg.marker) (hp : s.bmPos = .scan) (hu : s.bmHaveUpper = true) (x : Byte) :
    feed [m, x, m] s =
      exec (.faPush (assembleByte s.bmUpper (hdecOp s.cfg.nibbleBitOrder (byteCodeword x))))
        { s with bmCw := x, bmHaveUpper := false } := by
  rw [feed_unit hm hp, hp]
  exact exec_bmRxByte_close_lower rfl hm hu

end OneUnit

/-! ### A codeword byte with at most one bit flipped -/

/-- A flip in the byte is a flip in the codeword; position 7 is outside it (30_encoding.md R72). -/
theorem byteCodeword_flipped (x : Byte) (p : Fin 8) :
    byteCodeword (flipped x (some p)) = flipBit (byteCodeword x) p.val := by
  have hbit : (1#8 <<< p.val).setWidth 7 = 1#7 <<< p.val := by decide +revert
  rw [flipped, byteCodeword, BitVec.setWidth_xor, hbit, flipBit]

theorem flipBit_seven (c : Codeword) : flipBit c 7 = c := BitVec.xor_zero

/-- The nibble survives, bit 7 included (42_byte_marker_codec.md R127 (b)). -/
theorem hdecOp_flipped_cwb (o : NibbleBitOrder) (n : Nibble) (e : Option (Fin 8)) :
    hdecOp o (byteCodeword (flipped (cwb o n) e)) = n := by
  cases e with
  | none => rw [flipped, cwb, byteCodeword_codewordByte, hdecOp_hencOp]
  | some p =>
    rw [byteCodeword_flipped, cwb, byteCodeword_codewordByte]
    rcases Nat.lt_succ_iff_lt_or_eq.mp p.isLt with hp | hp
    · exact hdecOp_flipBit_hencOp o n ⟨p.val, hp⟩
    · rw [hp, flipBit_seven, hdecOp_hencOp]

/-! ### The two units of a byte, from SCAN with no pending nibble -/

section FramedByte

variable {s : State}

theorem feed_noisyByte (hp : s.bmPos = .scan) (hu : s.bmHaveUpper = false) (b : Byte)
    (e : Option (Fin 8) × Option (Fin 8)) :
    feed (noisyByte s.cfg b e) s =
      exec (.faPush b)
        { s with bmCw := flipped (cwb s.cfg.nibbleBitOrder (lowerNibble b)) e.2, bmUpper := upperNibble b } := by
  change feed ([s.cfg.marker, flipped (cwb s.cfg.nibbleBitOrder (upperNibble b)) e.1, s.cfg.marker] ++
    [s.cfg.marker, flipped (cwb s.cfg.nibbleBitOrder (lowerNibble b)) e.2, s.cfg.marker]) s = _
  rw [feed_append, feed_upper_unit rfl hp hu, andThen_next, feed_lower_unit ?_ ?_ ?_, hdecOp_flipped_cwb,
    hdecOp_flipped_cwb, assembleByte_nibbles, hu]
  exacts [rfl, hp, rfl]

/-- Before the sixth byte the deframer stands in END of the lower unit; only its own registers have changed. -/
theorem feed_dropLast_noisyByte (hp : s.bmPos = .scan) (hu : s.bmHaveUpper = false) (b : Byte)
    (e : Option (Fin 8) × Option (Fin 8)) :
    feed (noisyByte s.cfg b e).dropLast s =
      .next { s with bmPos := .close, bmCw := flipped (cwb s.cfg.nibbleBitOrder (lowerNibble b)) e.2,
                     bmHaveUpper := true, bmUpper := upperNibble b } := by
  change feed ([s.cfg.marker, flipped (cwb s.cfg.nibbleBitOrder (upperNibble b)) e.1, s.cfg.marker] ++
    [s.cfg.marker, flipped (cwb s.cfg.nibbleBitOrder (lowerNibble b)) e.2]) s = _
  rw [feed_append, feed_upper_unit rfl hp hu, andThen_next, hdecOp_flipped_cwb, feed_opening ?_ ?_]
  exacts [rfl, hp]

/-- BM_ENC of a byte is the case of no flip. -/
theorem feed_bmEncByte (hp : s.bmPos = .scan) (hu : s.bmHaveUpper = false) (b : Byte) :
    feed (bmEncByte s.cfg b) s =
      exec (.faPush b)
        { s with bmCw := cwb s.cfg.nibbleBitOrder (lowerNibble b), bmUpper := upperNibble b } :=
  feed_noisyByte hp hu b (none, none)

end FramedByte

/-- Settles O11: each damaged unit still yields its nibble, and the byte is pushed by the closing MARKER of
the second. -/
theorem framedByteSurvivesOneFlipPerCodeword : Obligations.FramedByteSurvivesOneFlipPerCodeword := fun _ b e hp hu =>
  ⟨feed_noisyByte hp hu b e, _, feed_dropLast_noisyByte hp hu b e, rfl, rfl⟩

/-! ### A sequence of bytes -/

/-- FA_PUSH writes the frame assembler, and what a completed frame sets off writes slots and outputs; the deframer's
registers stay. -/
theorem faPush_frame {s t : State} {d : Byte} (h : exec (.faPush d) s = .next t) :
    t = { s with faBuf := t.faBuf, faCount := t.faCount, conn := t.conn, out := t.out } := by
  replace h : faPushOp s d = .next t := h
  obtain ⟨-, ⟨rfl, -⟩ | ⟨len, bytes, -, -, -, -, hdone⟩⟩ := faPushOp_next h
  · rfl
  · have hframe := frameDone_frame hdone
    rw [OnlyConnOut] at hframe
    rw [hframe]

/-- Settles O12, by induction on the bytes: each byte's two units push it, and FA_PUSH leaves the deframer in SCAN with
no pending nibble. -/
theorem framedBytesArePushedInOrder : Obligations.FramedBytesArePushedInOrder := by
  intro bs
  induction bs with
  | nil => exact fun s _ _ => rfl
  | cons b bs ih =>
    intro s hp hu
    rw [bmEncOp_cons, feed_append, feed_bmEncByte hp hu, pushAll]
    refine andThen_congr fun t ht => ?_
    have hframe := faPush_frame ht
    have hcfg : t.cfg = s.cfg := by rw [hframe]
    rw [← hcfg]
    exact ih t (by rw [hframe]; exact hp) (by rw [hframe]; exact hu)

/-! ### One byte late -/

section Late

variable {s : State}

/-- From CW a unit's opening MARKER is taken as the codeword byte, its codeword byte fails to close, and its closing
MARKER is taken as an opening one: the slip repeats (42_byte_marker_codec.md R128). -/
theorem feed_unitOf_late {cfg : Config} (hc : cfg = s.cfg) (hp : s.bmPos = .cw) {n : Nibble}
    (hn : cwb cfg.nibbleBitOrder n ≠ cfg.marker) :
    feed (unitOf cfg n) s = .next { s with bmCw := cfg.marker } := by
  subst hc
  simp only [unitOf, feed, exec_bmRxByte_cw hp, andThen_next, exec_bmRxByte_close_other, hn, ne_eq, not_false_eq_true,
    exec_bmRxByte_scan_marker, hp]

/-- From SCAN the rest of a unit whose opening MARKER was missed starts the slip. -/
theorem feed_tail_unitOf (hp : s.bmPos = .scan) {n : Nibble} (hn : cwb s.cfg.nibbleBitOrder n ≠ s.cfg.marker) :
    feed (unitOf s.cfg n).tail s = .next { s with bmPos := .cw } := by
  simp only [unitOf, List.tail_cons, feed, exec_bmRxByte_scan_other hp hn, exec_bmRxByte_scan_marker hp, andThen_next]

/-- Once the slip has begun, no run of units changes anything. -/
theorem feed_bmEncOp_late {cfg : Config} (hc : cfg = s.cfg) (hp : s.bmPos = .cw) (hcw : s.bmCw = cfg.marker)
    {bs : List Byte}
    (hbs : ∀ b ∈ bs, cwb cfg.nibbleBitOrder (upperNibble b) ≠ cfg.marker ∧
      cwb cfg.nibbleBitOrder (lowerNibble b) ≠ cfg.marker) :
    feed (bmEncOp cfg bs) s = .next s := by
  have hunit : ∀ n, cwb cfg.nibbleBitOrder n ≠ cfg.marker → feed (unitOf cfg n) s = .next s := by
    intro n hn
    rw [feed_unitOf_late hc hp hn, ← hcw]
  induction bs with
  | nil => rfl
  | cons b bs ih =>
    obtain ⟨⟨hupper, hlower⟩, hrest⟩ := List.forall_mem_cons.mp hbs
    rw [bmEncOp_cons, bmEncByte, feed_append, feed_append, hunit _ hupper, andThen_next, hunit _ hlower, andThen_next]
    exact ih hrest

end Late

/-- Settles O13: the first unit without its opening MARKER starts the slip, the second one leaves MARKER in `bm_cw`, and
the units of the remaining bytes change nothing more. -/
theorem lateStartDecodesNothing : Obligations.LateStartDecodesNothing := by
  intro bs s hp hne hbs
  cases bs with
  | nil => exact absurd rfl hne
  | cons b bs =>
    obtain ⟨⟨hupper, hlower⟩, hrest⟩ := List.forall_mem_cons.mp hbs
    have htail : (bmEncOp s.cfg (b :: bs)).tail =
        (unitOf s.cfg (upperNibble b)).tail ++ (unitOf s.cfg (lowerNibble b) ++ bmEncOp s.cfg bs) := rfl
    rw [htail, feed_append, feed_tail_unitOf hp hupper, andThen_next, feed_append, feed_unitOf_late ?_ ?_ hlower,
      andThen_next, feed_bmEncOp_late ?_ ?_ ?_ hrest]
    all_goals rfl

end Sys2Proof.Machine

/-! The frame serializer family: the layout of a serialized frame (43_frame_serializer.md R140), Emit (R141), and what
SERIALIZE guarantees (R142). For R142 (d) a run of wire bytes is taken apart at the frame's last byte: the bytes before
STOP leave the frame unfinished, so FA_PUSH buffers them; STOP completes it. -/

namespace Sys2Proof.Machine

open Terms

/-! ### SERIALIZE and Emit -/

/-- SERIALIZE hands its bytes to the caller and writes nothing else. -/
theorem exec_serialize (f : Frame) (s : State) :
    exec (.serialize f) s = .next (s.ret (.bytes (serializeOp s.cfg f))) := rfl

/-- A frame's bytes without the closing STOP. -/
def beforeStop (cfg : Config) (f : Frame) : List Byte :=
  [cfg.start, addrByte f.receiver, addrByte f.sender, f.type.code, lengthByte f.payload] ++ f.payload

theorem serializeOp_eq_beforeStop (cfg : Config) (f : Frame) : serializeOp cfg f = beforeStop cfg f ++ [cfg.stop] := rfl

theorem length_beforeStop (cfg : Config) (f : Frame) : (beforeStop cfg f).length = 5 + f.payload.length := by
  rw [beforeStop, List.length_append]
  rfl

theorem length_serializeOp (cfg : Config) (f : Frame) : (serializeOp cfg f).length = 6 + f.payload.length := by
  rw [serializeOp_eq_beforeStop, List.length_append, length_beforeStop, List.length_singleton]
  omega

theorem serializeOp_stop (cfg : Config) (f : Frame) : (serializeOp cfg f)[5 + f.payload.length]? = some cfg.stop := by
  rw [serializeOp_eq_beforeStop, ← length_beforeStop cfg f, List.getElem?_concat_length]

theorem serializeOp_payload (cfg : Config) (f : Frame) :
    ((serializeOp cfg f).drop 5).take f.payload.length = f.payload :=
  List.take_left

/-- Settles O14, one field of the layout after the other. -/
theorem serializeLayout : Obligations.SerializeLayout := by
  intro s f hlen
  have htype : (serializeOp s.cfg f)[3]? = some f.type.code := rfl
  refine ⟨serializeOp s.cfg f, exec_serialize f s, length_serializeOp s.cfg f, rfl, rfl, rfl, ?_,
    ⟨lengthByte f.payload, rfl, toNat_lengthByte hlen⟩, serializeOp_payload s.cfg f, serializeOp_stop s.cfg f⟩
  rw [htype]
  cases f.type <;> rfl

/-- Settles O17: the `Tx` item is Emit's definition; six wire bytes for each serialized byte give its length. -/
theorem emitIsOneContiguousTx : Obligations.EmitIsOneContiguousTx := fun s f =>
  ⟨rfl, by rw [length_bmEncOp, length_serializeOp]⟩

/-- SERIALIZE is injective on valid frames: DESERIALIZE recovers the RxFrame, and the RxFrame determines the Frame. -/
theorem serializeOp_injective (cfg : Config) {f g : Frame} (hf : f.valid = true) (hg : g.valid = true)
    (h : serializeOp cfg f = serializeOp cfg g) : f = g := by
  have hok : Deserialized.ok f.toRx = .ok g.toRx := by
    rw [← deserializeOp_serializeOp cfg hf, h, deserializeOp_serializeOp cfg hg]
  have hrx : f.toRx = g.toRx := Deserialized.ok.inj hok
  apply Option.some.inj
  rw [← toFrame?_toRx f, hrx, toFrame?_toRx]

/-- Settles O16 from the round trips through the bytes and through the RxFrame. -/
theorem deserializeInvertsSerialize : Obligations.DeserializeInvertsSerialize := fun cfg f hf =>
  ⟨deserializeOp_serializeOp cfg hf, toFrame?_toRx f, length_serializeOp cfg f,
    fun _ hg h => serializeOp_injective cfg hf hg h⟩

/-! ### Unfinished frames -/

/-- The bytes are fewer than LENGTH + 6, if they hold a LENGTH byte at all: FA_PUSH waits for more
(44_frame_deserializer.md R151). -/
def Unfinished (bs : List Byte) : Prop := ∀ len : Byte, bs[4]? = some len → bs.length < len.toNat + frameOverhead

/-- What comes before the end of an unfinished frame is unfinished: LENGTH stays where it is. -/
theorem Unfinished.of_append {bs cs : List Byte} (h : Unfinished (bs ++ cs)) : Unfinished bs := by
  intro len hlen
  have hlong : (bs ++ cs).length < len.toNat + frameOverhead :=
    h len (by rw [List.getElem?_append_left (List.getElem?_eq_some_iff.1 hlen).1, hlen])
  rw [List.length_append] at hlong
  omega

/-- LENGTH is at most 255, so an unfinished frame is no longer than 260 bytes (10_state.md R29 I-3). -/
theorem Unfinished.length_lt {bs : List Byte} (h : Unfinished bs) : bs.length < frameMax := by
  rcases Nat.lt_or_ge 4 bs.length with h4 | h4
  · have hlong := h _ (List.getElem?_eq_getElem h4)
    have hlen := toNat_le_lengthMax bs[4]
    dsimp only [frameOverhead, lengthMax, frameMax] at *
    omega
  · dsimp only [frameMax]
    omega

/-- LENGTH is the fifth byte (43_frame_serializer.md R140). -/
theorem beforeStop_length_byte (cfg : Config) (f : Frame) : (beforeStop cfg f)[4]? = some (lengthByte f.payload) := rfl

/-- Until STOP a valid frame is one byte short. -/
theorem beforeStop_unfinished (cfg : Config) {f : Frame} (hf : f.valid = true) : Unfinished (beforeStop cfg f) := by
  intro len hlen
  rw [beforeStop_length_byte] at hlen
  obtain rfl := Option.some.inj hlen
  rw [length_beforeStop, toNat_lengthByte (of_decide_eq_true hf), frameOverhead]
  omega

/-! ### FA_PUSH after the bytes buffered -/

section Push

variable {s : State} {bs : List Byte} {d : Byte}

theorem length_of_buffered (hb : s.buffered = some bs) : s.faCount.toNat = bs.length :=
  ((memRead_eq_some_iff _ _ _ _).1 hb).1.symm

/-- Counting one byte more does not wrap while there is room (10_state.md R26). -/
theorem faCount_succ (hb : s.buffered = some bs) (hroom : bs.length < frameMax) :
    (s.faCount + 1).toNat = bs.length + 1 := by
  have hcount := length_of_buffered hb
  dsimp only [frameMax] at hroom
  bv_omega

/-- After the store the buffer reads as the bytes buffered and the new one. -/
theorem memRead_pushed (hb : s.buffered = some bs) (d : Byte) :
    memRead (bufInsert s.faBuf bs.length d) 0 (bs.length + 1) = some (bs ++ [d]) := by
  rw [State.buffered, length_of_buffered hb] at hb
  exact memRead_bufInsert_append d hb

theorem bufRead_pushed (hb : s.buffered = some bs) (d : Byte) {k : Nat} (hk : k ≤ bs.length) :
    bufRead (bufInsert s.faBuf bs.length d) k = (bs ++ [d])[k]? := by
  have hread := ((memRead_eq_some_iff _ _ _ _).1 (memRead_pushed hb d)).2 k (Nat.lt_succ_of_le hk)
  rwa [Nat.zero_add] at hread

/-- FA_PUSH of a byte that leaves the frame unfinished stores it, and nothing else (44_frame_deserializer.md R151). -/
theorem exec_faPush_of_unfinished (hb : s.buffered = some bs) (h : Unfinished (bs ++ [d])) :
    exec (.faPush d) s = .next { s with faBuf := bufInsert s.faBuf bs.length d, faCount := s.faCount + 1 } := by
  have hroom := h.of_append.length_lt
  change faPushOp s d = _
  rw [faPushOp, length_of_buffered hb, memWrite_of_lt _ _ hroom]
  dsimp only
  rw [faCount_succ hb hroom]
  split
  · next h5 =>
    have h4 : 4 < (bs ++ [d]).length := by rw [List.length_append, List.length_singleton]; omega
    have hlen : (bs ++ [d])[4]? = some (bs ++ [d])[4] := List.getElem?_eq_getElem h4
    have hshort := h _ hlen
    rw [List.length_append, List.length_singleton] at hshort
    rw [bufRead_pushed hb d (by omega), hlen]
    exact if_neg (Nat.not_le.mpr hshort)
  · rfl

/-- The store of such a byte appends it to the bytes buffered. -/
theorem buffered_pushed (hb : s.buffered = some bs) (hroom : bs.length < frameMax) (d : Byte) :
    ({ s with faBuf := bufInsert s.faBuf bs.length d, faCount := s.faCount + 1 } : State).buffered =
      some (bs ++ [d]) := by
  rw [State.buffered, faCount_succ hb hroom]
  exact memRead_pushed hb d

/-- FA_PUSH of the byte that brings the frame to LENGTH + 6 bytes clears the buffer and judges what was in it
(44_frame_deserializer.md R151). -/
theorem exec_faPush_of_complete (hb : s.buffered = some bs) (hroom : bs.length < frameMax) {len : Byte}
    (hlen : (bs ++ [d])[4]? = some len) (hfull : len.toNat + frameOverhead ≤ bs.length + 1) :
    exec (.faPush d) s =
      frameDone { s with faBuf := bufInsert s.faBuf bs.length d, faCount := 0 } (deserializeOp s.cfg (bs ++ [d])) := by
  have h5 : 5 ≤ bs.length + 1 := by dsimp only [frameOverhead] at hfull; omega
  change faPushOp s d = _
  rw [faPushOp, length_of_buffered hb, memWrite_of_lt _ _ hroom]
  dsimp only
  rw [faCount_succ hb hroom, if_pos h5, bufRead_pushed hb d (by omega), hlen]
  dsimp only
  rw [if_pos hfull, memRead_pushed hb d]

/-- An RxFrame goes to ACCEPT, and if it is accepted to ROUTE (44_frame_deserializer.md R151, R152). -/
theorem frameDone_ok (s : State) (f : RxFrame) :
    frameDone s (.ok f) = if acceptOp s f then exec (.route f) s else .next s := rfl

/-- STOP after the rest of a valid frame completes that frame. -/
theorem exec_faPush_stop {f : Frame} (hf : f.valid = true) (hb : s.buffered = some (beforeStop s.cfg f)) :
    exec (.faPush s.cfg.stop) s =
      frameDone { s with faBuf := bufInsert s.faBuf (beforeStop s.cfg f).length s.cfg.stop, faCount := 0 }
        (.ok f.toRx) := by
  have hlen : (beforeStop s.cfg f ++ [s.cfg.stop])[4]? = some (lengthByte f.payload) := rfl
  have hfull : (lengthByte f.payload).toNat + frameOverhead ≤ (beforeStop s.cfg f).length + 1 := by
    rw [length_beforeStop, toNat_lengthByte (of_decide_eq_true hf), frameOverhead]
    omega
  rw [exec_faPush_of_complete hb (beforeStop_unfinished s.cfg hf).length_lt hlen hfull, ← serializeOp_eq_beforeStop,
    deserializeOp_serializeOp s.cfg hf]

end Push

/-! ### The wire bytes of a frame, damaged -/

/-- The last byte's six wire bytes come last, damaged by the error at its own place. -/
theorem noisyWire_concat (cfg : Config) (bs : List Byte) (b : Byte) (es : List (Option (Fin 8) × Option (Fin 8))) :
    noisyWire cfg (bs ++ [b]) es = noisyWire cfg bs es ++ noisyByte cfg b (es.getD bs.length (none, none)) := by
  induction bs generalizing es with
  | nil => cases es <;> exact List.append_nil _
  | cons c bs ih =>
    cases es <;> rw [List.cons_append, noisyWire, noisyWire, ih, List.append_assoc] <;> rfl

/-- `t` is `s` after the bytes `bs` have come in as whole units and none has completed a frame: the deframer is between
units, `bs` is buffered, and no other register has changed. -/
structure Received (s : State) (bs : List Byte) (t : State) : Prop where
  frame : t = { s with bmCw := t.bmCw, bmUpper := t.bmUpper, faBuf := t.faBuf, faCount := t.faCount }
  buffered : t.buffered = some bs

namespace Received

variable {s t : State} {bs : List Byte}

theorem cfg_eq (h : Received s bs t) : t.cfg = s.cfg := by rw [h.frame]

theorem localAddr_eq (h : Received s bs t) : t.localAddr = s.localAddr := by rw [h.frame]

theorem bmPos_eq (h : Received s bs t) : t.bmPos = s.bmPos := by rw [h.frame]

theorem bmHaveUpper_eq (h : Received s bs t) : t.bmHaveUpper = s.bmHaveUpper := by rw [h.frame]

/-- An empty buffer has received nothing. -/
theorem empty (hc : s.faCount = 0) : Received s [] s where
  frame := rfl
  buffered := by rw [State.buffered, hc]; rfl

/-- The nibble registers do not matter. -/
theorem registers (h : Received s bs t) (cw : Byte) (upper : Nibble) :
    Received s bs { t with bmCw := cw, bmUpper := upper } where
  frame := by rw [h.frame]
  buffered := h.buffered

/-- FA_PUSH takes one byte more in. -/
theorem push (h : Received s bs t) {d : Byte} (hopen : Unfinished (bs ++ [d])) :
    ∃ u, exec (.faPush d) t = .next u ∧ Received s (bs ++ [d]) u :=
  ⟨_, exec_faPush_of_unfinished h.buffered hopen, by rw [h.frame],
    buffered_pushed h.buffered hopen.of_append.length_lt d⟩

end Received

section NoisyFrame

variable {s : State} (hp : s.bmPos = .scan) (hu : s.bmHaveUpper = false)
include hp hu

/-- One damaged byte after the bytes received: FA_PUSH of it, with other nibble registers. -/
theorem Received.feed_byte {bs : List Byte} {t : State} (h : Received s bs t) (b : Byte)
    (e : Option (Fin 8) × Option (Fin 8)) :
    ∃ v, Received s bs v ∧ feed (noisyByte s.cfg b e) t = exec (.faPush b) v := by
  rw [← h.cfg_eq]
  exact ⟨_, h.registers _ _, feed_noisyByte (h.bmPos_eq.trans hp) (h.bmHaveUpper_eq.trans hu) b e⟩

/-- The bytes of an unfinished frame arrive undamaged in the buffer; by induction on them from the end. -/
theorem feed_noisyWire_of_unfinished (hc : s.faCount = 0) (es : List (Option (Fin 8) × Option (Fin 8)))
    {bs : List Byte} (hopen : Unfinished bs) :
    ∃ t, feed (noisyWire s.cfg bs es) s = .next t ∧ Received s bs t := by
  induction bs using List.reverseRecOn with
  | nil => exact ⟨s, rfl, .empty hc⟩
  | append_singleton bs b ih =>
    obtain ⟨t, hfeed, ht⟩ := ih hopen.of_append
    obtain ⟨v, hv, hbyte⟩ := ht.feed_byte hp hu b (es.getD bs.length (none, none))
    rw [noisyWire_concat, feed_append, hfeed, andThen_next, hbyte]
    exact hv.push hopen

end NoisyFrame

/-- Settles O20: all bytes but STOP are buffered, the first five wire bytes of STOP move the deframer only, and the
sixth pushes it, which completes the frame. -/
theorem frameArrivesAtAcceptUnchanged : Obligations.FrameArrivesAtAcceptUnchanged := by
  intro s f es hf hp hu hc
  obtain ⟨t, hfeed, ht⟩ := feed_noisyWire_of_unfinished hp hu hc es (beforeStop_unfinished s.cfg hf)
  rw [serializeOp_eq_beforeStop, noisyWire_concat]
  generalize es.getD (beforeStop s.cfg f).length (none, none) = e
  constructor
  · obtain ⟨v, hv, hbyte⟩ := ht.feed_byte hp hu s.cfg.stop e
    rw [feed_append, hfeed, andThen_next, hbyte, ← hv.cfg_eq,
      exec_faPush_stop hf (by rw [hv.cfg_eq]; exact hv.buffered), frameDone_ok]
    refine ⟨_, ?_, by rw [acceptOp, acceptOp, ← hv.localAddr_eq]⟩
    rw [hv.frame, ← hc]
  · have hlast : noisyByte s.cfg s.cfg.stop e ≠ [] := List.cons_ne_nil _ _
    rw [List.dropLast_append_of_ne_nil hlast, feed_append, hfeed, andThen_next, ← ht.cfg_eq,
      feed_dropLast_noisyByte (ht.bmPos_eq.trans hp) (ht.bmHaveUpper_eq.trans hu)]
    exact ⟨_, rfl, by rw [ht.frame]⟩

end Sys2Proof.Machine

/-! The frame deserializer family: DESERIALIZE (44_frame_deserializer.md R150), ACCEPT (R152), ROUTE (R153) with the
inbound rows of 45_connection_fsm.md R182, and FA_PUSH (R151, R154). Each operation has its equations first, one for
each branch of its rule; the obligations are assembled from them. -/

namespace Sys2Proof.Machine

open Terms

/-! ### DESERIALIZE -/

section Deserialize

variable {cfg : Config} {buf : List Byte}

/-- A byte that is there is what `getD` reads. -/
theorem getD_eq_iff {k : Nat} (hk : k < buf.length) (b : Byte) : buf.getD k 0 = b ↔ buf[k]? = some b := by
  rw [List.getD_eq_getElem buf 0 hk, List.getElem?_eq_getElem hk, Option.some.injEq]

theorem getElem?_eq_getD {k : Nat} (hk : k < buf.length) : buf[k]? = some (buf.getD k 0) :=
  (getD_eq_iff hk _).mp rfl

theorem deserializeOp_of_short (h : buf.length < frameOverhead) : deserializeOp cfg buf = .fail .frameTooShort :=
  if_pos h

/-- The delimiters are tested before the declared length (44_frame_deserializer.md R150). -/
theorem deserializeOp_of_bad_delimiter (h6 : frameOverhead ≤ buf.length)
    (hbad : buf[0]? ≠ some cfg.start ∨ buf[buf.length - 1]? ≠ some cfg.stop) :
    deserializeOp cfg buf = .fail .invalidDelimiters := by
  dsimp only [frameOverhead] at h6
  rw [ne_eq, ne_eq, ← getD_eq_iff (by omega), ← getD_eq_iff (by omega)] at hbad
  rw [deserializeOp, if_neg (Nat.not_lt.mpr h6)]
  exact if_pos hbad

/-- Between its delimiters the buffer is judged by its LENGTH byte alone. -/
theorem deserializeOp_of_delimited {len : Byte} (h6 : frameOverhead ≤ buf.length) (hstart : buf[0]? = some cfg.start)
    (hstop : buf[buf.length - 1]? = some cfg.stop) (hlen : buf[4]? = some len) :
    deserializeOp cfg buf =
      if buf.length ≠ len.toNat + frameOverhead then .fail .lengthMismatch
      else .ok { receiver8 := buf.getD 1 0, sender8 := buf.getD 2 0, type8 := buf.getD 3 0,
                 payload := (buf.drop 5).take len.toNat } := by
  dsimp only [frameOverhead] at h6
  rw [← getD_eq_iff (by omega)] at hstart hstop hlen
  have hends : ¬(buf.getD 0 0 ≠ cfg.start ∨ buf.getD (buf.length - 1) 0 ≠ cfg.stop) :=
    not_or.mpr ⟨not_not_intro hstart, not_not_intro hstop⟩
  rw [deserializeOp, if_neg (Nat.not_lt.mpr h6), if_neg hends, hlen]

/-- DESERIALIZE fails for three reasons only; `LengthMismatch` needs a LENGTH byte that disagrees. -/
theorem deserializeOp_eq_fail {e : Failure} (h : deserializeOp cfg buf = .fail e) :
    (e = .frameTooShort ∧ buf.length < frameOverhead) ∨ e = .invalidDelimiters ∨
      (e = .lengthMismatch ∧ ∃ len, buf[4]? = some len ∧ buf.length ≠ len.toNat + frameOverhead) := by
  rcases Nat.lt_or_ge buf.length frameOverhead with h6 | h6
  · rw [deserializeOp_of_short h6] at h
    exact .inl ⟨(Deserialized.fail.inj h).symm, h6⟩
  by_cases hends : buf[0]? = some cfg.start ∧ buf[buf.length - 1]? = some cfg.stop
  · obtain ⟨hstart, hstop⟩ := hends
    have hlen : buf[4]? = some (buf.getD 4 0) := getElem?_eq_getD (Nat.lt_of_lt_of_le (by decide) h6)
    rw [deserializeOp_of_delimited h6 hstart hstop hlen] at h
    split at h
    · next hne => exact .inr (.inr ⟨(Deserialized.fail.inj h).symm, _, hlen, hne⟩)
    · cases h
  · rw [deserializeOp_of_bad_delimiter h6 (not_and_or.mp hends)] at h
    exact .inr (.inl (Deserialized.fail.inj h).symm)

/-- Whatever DESERIALIZE fails with is a frame failure, reported on FrameErr (60_exceptions.md R230). -/
theorem report_of_deserializeOp_eq_fail {e : Failure} (h : deserializeOp cfg buf = .fail e) :
    e.report = .frameErr e := by
  obtain ⟨rfl, -⟩ | rfl | ⟨rfl, -⟩ := deserializeOp_eq_fail h <;> rfl

/-- A buffer of exactly LENGTH + 6 bytes can only have a bad delimiter (44_frame_deserializer.md R154 (b)). -/
theorem eq_invalidDelimiters_of_deserializeOp {e : Failure} {len : Byte} (h : deserializeOp cfg buf = .fail e)
    (hlen : buf[4]? = some len) (heq : buf.length = len.toNat + frameOverhead) : e = .invalidDelimiters := by
  obtain ⟨-, hshort⟩ | he | ⟨-, len', hlen', hne⟩ := deserializeOp_eq_fail h
  · omega
  · exact he
  · rw [hlen] at hlen'
    cases hlen'
    exact absurd heq hne

end Deserialize

/-- Settles O15, one equation of DESERIALIZE for each test that fails, and the frame when none does. -/
theorem deserializeTestsInOrder : Obligations.DeserializeTestsInOrder := by
  intro s buf
  refine ⟨deserializeOp s.cfg buf, rfl, deserializeOp_of_short, deserializeOp_of_bad_delimiter,
    fun len h6 hstart hstop hlen => ?_⟩
  have hjudged := deserializeOp_of_delimited h6 hstart hstop hlen
  refine ⟨fun hne => hjudged.trans (if_pos hne), fun heq => ⟨_, hjudged.trans (if_neg (not_not_intro heq)),
    getElem?_eq_getD (by omega), getElem?_eq_getD (by omega), getElem?_eq_getD (by omega), rfl, ?_⟩⟩
  rw [List.length_take, List.length_drop]
  omega

/-! ### ACCEPT -/

theorem acceptOp_eq_true_iff (s : State) (f : RxFrame) :
    acceptOp s f = true ↔ f.receiver8 = addrByte s.localAddr ∨ f.receiver8 = addrByte broadcast := by
  rw [acceptOp, Bool.or_eq_true, decide_eq_true_iff, decide_eq_true_iff]

/-- Settles O21: an address widened to 8 bits is below 0x80. -/
theorem acceptComparesReceiver : Obligations.AcceptComparesReceiver := by
  refine fun s f => ⟨acceptOp s f, rfl, acceptOp_eq_true_iff s f, fun hhigh => ?_⟩
  rw [Bool.eq_false_iff, ne_eq, acceptOp_eq_true_iff]
  rintro (h | h) <;> rw [h] at hhigh <;> exact absurd (addrByte_lt _) (Nat.not_lt.mpr hhigh)

/-! ### ROUTE -/

section Route

variable {s : State} {f : RxFrame}

theorem exec_route_of_no_address (h : 0x80 ≤ f.sender8.toNat) : exec (.route f) s = .next s := if_pos h

theorem exec_route_of_other_receiver (h : f.receiver8 ≠ addrByte s.localAddr) : exec (.route f) s = .next s := by
  by_cases hsender : 0x80 ≤ f.sender8.toNat
  · exact exec_route_of_no_address hsender
  · exact (if_neg hsender).trans (if_pos h)

variable (hsender : f.sender8.toNat < 0x80) (hreceiver : f.receiver8 = addrByte s.localAddr)
include hsender hreceiver

theorem exec_route_of_known {i : Nat} (hfind : s.find (byteAddr f.sender8) = some i) :
    exec (.route f) s = exec (.connRx i f) s := by
  change routeOp s f = _
  rw [routeOp, if_neg (Nat.not_le.mpr hsender), if_neg (not_not_intro hreceiver), hfind]
  rfl

theorem exec_route_of_unknown (hfind : s.find (byteAddr f.sender8) = none) (htype : f.type8 ≠ typeLink) :
    exec (.route f) s = .next s := by
  change routeOp s f = _
  rw [routeOp, if_neg (Nat.not_le.mpr hsender), if_neg (not_not_intro hreceiver), hfind]
  exact if_neg htype

theorem exec_route_of_full (hfind : s.find (byteAddr f.sender8) = none) (htype : f.type8 = typeLink)
    (hfree : s.free = none) : exec (.route f) s = .next s := by
  change routeOp s f = _
  rw [routeOp, if_neg (Nat.not_le.mpr hsender), if_neg (not_not_intro hreceiver), hfind, hfree]
  exact if_pos htype

theorem exec_route_of_new_link {j : Nat} (hfind : s.find (byteAddr f.sender8) = none) (htype : f.type8 = typeLink)
    (hfree : s.free = some j) :
    exec (.route f) s = exec (.connRx j f) (s.setRemote j (byteAddr f.sender8)) := by
  change routeOp s f = _
  rw [routeOp, if_neg (Nat.not_le.mpr hsender), if_neg (not_not_intro hreceiver), hfind, hfree]
  exact if_pos htype

end Route

theorem setRemote_eq_set {s : State} {j : Nat} {c : Slot} (h : s.conn[j]? = some c) (r : Addr) :
    s.setRemote j r = { s with conn := s.conn.set j { c with remote := r } } := by
  rw [State.setRemote, State.updSlot, modify_eq_set h]

/-- Settles O23, one branch of ROUTE for each clause. -/
theorem routeDropsOrHandsOver : Obligations.RouteDropsOrHandsOver := by
  refine fun s f => ⟨exec_route_of_no_address, exec_route_of_other_receiver, fun hsender hreceiver =>
    ⟨fun _ => exec_route_of_known hsender hreceiver, exec_route_of_unknown hsender hreceiver,
      exec_route_of_full hsender hreceiver, fun j c hfind htype hfree hc => ?_⟩⟩
  rw [exec_route_of_new_link hsender hreceiver hfind htype hfree, setRemote_eq_set hc]

/-! ### ROUTE follows the inbound rows of the matrix -/

/-- A byte below 0x80 is its address, widened (30_encoding.md R77). -/
theorem addrByte_byteAddr {b : Byte} (h : b.toNat < 0x80) : addrByte (byteAddr b) = b := by
  bv_omega

/-- A frame from the slot's peer to this node is considered (45_connection_fsm.md R171). -/
theorem considered_of_peer {s : State} {c : Slot} {f : RxFrame} (hsender : f.sender8.toNat < 0x80)
    (hreceiver : f.receiver8 = addrByte s.localAddr) (hpeer : c.remote = byteAddr f.sender8) :
    considered s c f = true := by
  rw [considered, hpeer, addrByte_byteAddr hsender, hreceiver, decide_eq_true rfl, decide_eq_true rfl]
  rfl

theorem exec_connRx_of_peer {s : State} {i : Nat} {c : Slot} {f : RxFrame} (hc : s.conn[i]? = some c)
    (hsender : f.sender8.toNat < 0x80) (hreceiver : f.receiver8 = addrByte s.localAddr)
    (hpeer : c.remote = byteAddr f.sender8) : exec (.connRx i f) s = .next (s.afterInbound i c f) :=
  connRxOp_of_considered hc (considered_of_peer hsender hreceiver hpeer)

/-- Two changes of one slot are one, with the outputs of both. -/
theorem putSlot_putSlot (s : State) (i : Nat) (d e : Slot) (os ps : List Output) :
    (s.putSlot i d os).putSlot i e ps = s.putSlot i e (os ++ ps) := by
  simp only [State.putSlot, List.set_set, List.append_assoc]

/-- The cell of a LINK at a DISCONNECTED slot, S2 of 45_connection_fsm.md R182. -/
theorem inboundCell_of_link (s : State) (i : Nat) {c : Slot} {f : RxFrame} (hs : c.state = .disconnected)
    (ht : f.type8 = typeLink) :
    inboundCell s i c f =
      ({ state := .connected, remote := c.remote, lastActivity := s.now, retryCount := 0 },
       [.tx (ctlWire s .ack c.remote), .notify i c.remote .disconnected .connected]) := by
  rw [inboundCell, hs]
  exact if_pos ht

/-- Settles O24: a known peer's slot is `find`'s, so its frame is considered there; a new peer's is so once the free
slot has been claimed for it. -/
theorem routeFollowsInboundMatrix : Obligations.RouteFollowsInboundMatrix := by
  refine fun s f hsender hreceiver => ⟨fun i c hfind hc => ?_, fun j hfind hfree htype => ?_⟩
  · obtain ⟨c', hc', -, hpeer⟩ := State.find_eq_some hfind
    obtain rfl : c' = c := Option.some.inj (hc'.symm.trans hc)
    rw [exec_route_of_known hsender hreceiver hfind, exec_connRx_of_peer hc hsender hreceiver hpeer]
    rfl
  · obtain ⟨c, hc, hs⟩ := State.free_eq_some hfree
    have hclaimed : (s.setRemote j (byteAddr f.sender8)).conn[j]? = some { c with remote := byteAddr f.sender8 } :=
      modify_get_same hc _
    have hcell : inboundCell (s.setRemote j (byteAddr f.sender8)) j { c with remote := byteAddr f.sender8 } f = _ :=
      inboundCell_of_link _ _ hs htype
    rw [exec_route_of_new_link hsender hreceiver hfind htype hfree,
      exec_connRx_of_peer hclaimed hsender hreceiver rfl, State.afterInbound, hcell, setRemote_eq_putSlot hc,
      putSlot_putSlot]
    rfl

/-! ### FA_PUSH -/

/-- A frame failure goes to FrameErr (60_exceptions.md R231). -/
theorem frameDone_fail (s : State) {e : Failure} (h : e.report = .frameErr e) :
    frameDone s (.fail e) = .next { s with out := s.out ++ [.frameErr e] } := by
  change Host.Outcome.next (s.output e.report) = _
  rw [h]
  rfl

/-- Settles O18: the store appends the byte; an unfinished frame waits, a complete one is judged, and what DESERIALIZE
fails with is a frame failure. -/
theorem faPushBuffersOrJudges : Obligations.FaPushBuffersOrJudges := by
  intro s d bs hb h260
  have hroom : bs.length < frameMax := Nat.lt_succ_of_le h260
  refine ⟨bufInsert s.faBuf bs.length d, fun k hk => bufRead_bufInsert_other _ _ hk, memRead_pushed hb d,
    fun hopen => ?_, fun len _ hlen hfull => ?_⟩
  · have hunfinished : Unfinished (bs ++ [d]) := by
      intro len hlen
      rw [List.length_append, List.length_singleton]
      obtain hlt | ⟨len', hlen', hlt⟩ := hopen
      · dsimp only [frameOverhead]
        omega
      · rw [hlen] at hlen'
        cases hlen'
        exact hlt
    have hcount : s.faCount + 1 = BitVec.ofNat 9 (bs.length + 1) := by
      rw [← faCount_succ hb hroom, BitVec.ofNat_toNat, BitVec.setWidth_eq]
    rw [exec_faPush_of_unfinished hb hunfinished, hcount]
  · rw [exec_faPush_of_complete hb hroom hlen hfull]
    cases hr : deserializeOp s.cfg (bs ++ [d]) with
    | ok f => rfl
    | fail e => exact frameDone_fail _ (report_of_deserializeOp_eq_fail hr)

/-! ### What FA_PUSH reports -/

section Reports

variable {s t : State} {e : Failure}

/-- No inbound row reports a frame failure (45_connection_fsm.md R182). -/
theorem frameErr_not_mem_inboundCell (s : State) (i : Nat) (c : Slot) (f : RxFrame) (e : Failure) :
    .frameErr e ∉ (inboundCell s i c f).2 := by
  rw [inboundCell]
  cases c.state with
  | disconnected => dsimp only; split <;> simp
  | connecting => dsimp only; split <;> simp
  | connected =>
    dsimp only
    split
    · simp
    · split
      · split <;> simp
      · simp
  | disconnecting => dsimp only; split <;> simp

/-- CONN_RX reports no frame failure. -/
theorem frameErr_of_connRxOp {i : Nat} {f : RxFrame} (h : connRxOp s i f = .next t) (he : .frameErr e ∈ t.out) :
    .frameErr e ∈ s.out := by
  obtain rfl | ⟨c, hc, hcon, -⟩ := connRxOp_next h
  · exact he
  · rw [connRxOp_of_considered hc hcon] at h
    cases h
    exact (List.mem_append.mp he).resolve_right (frameErr_not_mem_inboundCell _ _ _ _ _)

/-- ROUTE reports no frame failure. -/
theorem frameErr_of_routeOp {f : RxFrame} (h : routeOp s f = .next t) (he : .frameErr e ∈ t.out) :
    .frameErr e ∈ s.out := by
  obtain rfl | ⟨i, -, hrx⟩ | ⟨j, -, -, -, hrx⟩ := routeOp_next h
  · exact he
  · exact frameErr_of_connRxOp hrx he
  · have hout := frameErr_of_connRxOp hrx he
    rwa [State.setRemote_out] at hout

theorem Failure.report_inj_frameErr {e' : Failure} (h : e'.report = .frameErr e) : e' = e := by
  cases e' <;> cases h <;> rfl

/-- After a completed buffer the only failure reported is DESERIALIZE's (44_frame_deserializer.md R151). -/
theorem frameErr_of_frameDone {r : Deserialized} (h : frameDone s r = .next t) (he : .frameErr e ∈ t.out) :
    .frameErr e ∈ s.out ∨ r = .fail e := by
  cases r with
  | ok f =>
    rw [frameDone_ok] at h
    split at h
    · exact .inl (frameErr_of_routeOp h he)
    · cases h
      exact .inl he
  | fail e' =>
    cases h
    rw [State.raise_out, List.mem_append, List.mem_singleton] at he
    exact he.imp_right fun hreport => by rw [Failure.report_inj_frameErr hreport.symm]

theorem BufferOk.buffered_eq (h : BufferOk s) : ∃ bs, s.buffered = some bs :=
  memRead_isSome _ _ _ fun k hk => by rw [Nat.zero_add]; exact h.written k hk

/-- I-5 of 10_state.md R29, of the bytes buffered. -/
theorem BufferOk.buffered_unfinished (h : BufferOk s) {bs : List Byte} (hb : s.buffered = some bs) :
    Unfinished bs := by
  intro len hlen
  have hcount := length_of_buffered hb
  have h4 : 4 < bs.length := (List.getElem?_eq_some_iff.1 hlen).1
  have hread := ((memRead_eq_some_iff _ _ _ _).1 hb).2 4 (by omega)
  rw [← hcount]
  exact h.unfinished len (by omega) (hread.trans hlen)

/-- A byte that ends an unfinished frame brings it to exactly LENGTH + 6 bytes (44_frame_deserializer.md R154 (a)). -/
theorem length_eq_of_completed {bs : List Byte} {d : Byte} (hopen : Unfinished bs) {len : Byte}
    (hlen : (bs ++ [d])[4]? = some len) (hfull : len.toNat + frameOverhead ≤ bs.length + 1) :
    (bs ++ [d]).length = len.toNat + frameOverhead := by
  have h4 : 4 < bs.length := by dsimp only [frameOverhead] at hfull; omega
  rw [List.getElem?_append_left h4] at hlen
  have hshort := hopen len hlen
  rw [List.length_append, List.length_singleton]
  omega

/-- FA_PUSH keeps the buffer's invariants (10_state.md R29): what a completed frame sets off does not touch it. -/
theorem exec_faPush_keeps_buffer {d : Byte} (h : BufferOk s) (hpush : exec (.faPush d) s = .next t) : BufferOk t := by
  obtain ⟨u, hu, hrun⟩ := faPushOp_run hpush
  have hframe := hrun.onlyConnOut
  rw [OnlyConnOut] at hframe
  exact (hu.buffer h).of_buffer_eq (by rw [hframe]) (by rw [hframe])

/-- FA_PUSH reports a bad delimiter only (44_frame_deserializer.md R154 (b)). -/
theorem frameErr_of_faPush {d : Byte} (h : BufferOk s) (hpush : exec (.faPush d) s = .next t)
    (he : .frameErr e ∈ t.out) : .frameErr e ∈ s.out ∨ e = .invalidDelimiters := by
  obtain ⟨bs, hb⟩ := h.buffered_eq
  have hopen := h.buffered_unfinished hb
  by_cases hnext : Unfinished (bs ++ [d])
  · rw [exec_faPush_of_unfinished hb hnext] at hpush
    cases hpush
    exact .inl he
  · simp only [Unfinished, not_forall, Nat.not_lt, List.length_append, List.length_singleton] at hnext
    obtain ⟨len, hlen, hfull⟩ := hnext
    rw [exec_faPush_of_complete hb hopen.length_lt hlen hfull] at hpush
    exact (frameErr_of_frameDone hpush he).imp_right fun hfail =>
      eq_invalidDelimiters_of_deserializeOp hfail hlen (length_eq_of_completed hopen hlen hfull)

end Reports

/-- Settles O19: FA_PUSH answers, what it answers keeps the buffer's invariants, and by I-5 a completed buffer has the
length it declares. -/
theorem faPushReportsOnlyInvalidDelimiters : Obligations.FaPushReportsOnlyInvalidDelimiters := by
  intro s d h
  obtain ⟨t, ht⟩ := faPushOp_answers h d
  exact ⟨t, ht, exec_faPush_keeps_buffer h ht, fun _ => frameErr_of_faPush h ht⟩

end Sys2Proof.Machine

/-! The connection machine family (45_connection_fsm.md). TICK first, as its cells on every slot at once (R183) with the
runs of due ticks (R188, R189 (g)); then every row of the transition matrix with its event and its outputs
(`MatrixRow`, R182), which says once what an agents' event does to the connections (`TakesRows`); last the handlers and
the host commands (R170 to R179). -/

namespace Sys2Proof.Machine

open Terms

/-! ### TICK on every slot -/

/-- `s` after TICK has acted on the slots below `k` (45_connection_fsm.md R183). -/
def State.tickedBelow (s : State) (k : Nat) : State :=
  { s with
    conn := (s.conn.zipIdx.take k).map (fun p => (tickCell s p.2 p.1).1) ++ s.conn.drop k,
    out := s.out ++ (s.conn.zipIdx.take k).flatMap (fun p => (tickCell s p.2 p.1).2) }

/-- `s` after TICK. -/
def State.ticked (s : State) : State :=
  { s with
    conn := s.conn.zipIdx.map (fun p => (tickCell s p.2 p.1).1),
    out := s.out ++ s.conn.zipIdx.flatMap (fun p => (tickCell s p.2 p.1).2) }

section Tick

variable {s : State} {k : Nat} {c : Slot}

theorem tickSlots_concat (is : List Nat) (i : Nat) (s : State) :
    tickSlots (is ++ [i]) s = tickSlot (tickSlots is s) i := by
  induction is generalizing s with
  | nil => rfl
  | cons j is ih => exact ih _

theorem take_succ_zipIdx (h : s.conn[k]? = some c) :
    s.conn.zipIdx.take (k + 1) = s.conn.zipIdx.take k ++ [(c, k)] := by
  rw [List.take_add_one, List.getElem?_zipIdx, h]
  simp

theorem tickedBelow_slot (h : s.conn[k]? = some c) : (s.tickedBelow k).conn[k]? = some c := by
  have hk := slot_lt h
  rw [State.tickedBelow, List.getElem?_append_right (by simp), List.getElem?_drop, ← h]
  simp [Nat.min_eq_left hk.le]

/-- The cell of a slot looks at no other slot, so what TICK has done below does not matter. -/
theorem tickSlot_tickedBelow (h : s.conn[k]? = some c) : tickSlot (s.tickedBelow k) k = s.tickedBelow (k + 1) := by
  obtain ⟨hk, rfl⟩ := List.getElem?_eq_some_iff.1 h
  have hcell : tickCell (s.tickedBelow k) k s.conn[k] = tickCell s k s.conn[k] := rfl
  rw [tickSlot_eq_tickCell (tickedBelow_slot h), hcell, State.putSlot]
  simp only [State.tickedBelow, take_succ_zipIdx h, List.map_append, List.flatMap_append, List.append_assoc]
  have hset : ∀ d : Slot, (s.conn.drop k).set 0 d = d :: s.conn.drop (k + 1) := fun d => by
    rw [List.drop_eq_getElem_cons hk, List.set_cons_zero]
  rw [List.set_append_right _ _ (by simp)]
  simp [Nat.min_eq_left hk.le, hset]

theorem tickSlots_range (hk : k ≤ s.conn.length) : tickSlots (List.range k) s = s.tickedBelow k := by
  induction k with
  | zero => simp [tickSlots, State.tickedBelow]
  | succ k ih =>
    rw [List.range_succ, tickSlots_concat, ih (by omega)]
    exact tickSlot_tickedBelow (List.getElem?_eq_getElem hk)

theorem exec_tick (s : State) : exec .tick s = .next s.ticked := by
  have hall : s.tickedBelow s.conn.length = s.ticked := by
    rw [State.tickedBelow, List.take_of_length_le (by simp), List.drop_length, List.append_nil]
    rfl
  exact congrArg _ ((tickSlots_range le_rfl).trans hall)

theorem ticked_slot (h : s.conn[k]? = some c) : s.ticked.conn[k]? = some (tickCell s k c).1 := by
  simp [State.ticked, h]

theorem mem_ticked {d : Slot} (h : d ∈ s.ticked.conn) :
    ∃ k c, s.conn[k]? = some c ∧ d = (tickCell s k c).1 := by
  obtain ⟨⟨c, k⟩, hmem, rfl⟩ := List.mem_map.1 h
  exact ⟨k, c, List.mem_zipIdx_iff_getElem?.1 hmem, rfl⟩

end Tick

/-- Settles O37, by induction on the number of slots TICK has acted on. -/
theorem tickActsOnEverySlotInOrder : Obligations.TickActsOnEverySlotInOrder := exec_tick

/-! ### The TICK cells, row by row -/

/-- The states TICK tells apart: a CONNECTING or DISCONNECTING slot has a frame pending (45_connection_fsm.md R183). -/
theorem ConnState.disconnected_or_connected_or_pending (st : ConnState) :
    st = .disconnected ∨ st = .connected ∨ st = .connecting ∨ st = .disconnecting := by
  cases st <;> simp

section TickCell

variable {s : State} {c : Slot}

theorem due_iff_of_pending {cfg : Config} {t : Nat} (hs : c.state = .connecting ∨ c.state = .disconnecting) :
    c.due cfg t ↔ cfg.retryTimeout ≤ elapsed cfg.tsW (t % 2 ^ cfg.tsW) c.lastActivity := by
  rcases hs with hs | hs <;> rw [Slot.due, hs]

theorem due_iff_of_connected {cfg : Config} {t : Nat} (hs : c.state = .connected) :
    c.due cfg t ↔ cfg.idleTimeout ≤ elapsed cfg.tsW (t % 2 ^ cfg.tsW) c.lastActivity := by
  rw [Slot.due, hs]

theorem tickCell_of_disconnected (s : State) (k : Nat) (hs : c.state = .disconnected) : tickCell s k c = (c, []) := by
  rw [tickCell, hs]

theorem tickCell_of_not_due (k : Nat) (h : ¬ c.due s.cfg s.time) : tickCell s k c = (c, []) := by
  rw [tickCell]
  cases hs : c.state with
  | disconnected => rfl
  | connected => exact if_neg fun hdue => h ((due_iff_of_connected hs).2 hdue)
  | connecting => exact if_neg fun hdue => h ((due_iff_of_pending (.inl hs)).2 hdue)
  | disconnecting => exact if_neg fun hdue => h ((due_iff_of_pending (.inr hs)).2 hdue)

/-- S9 of 45_connection_fsm.md R182. -/
theorem tickCell_of_idle (k : Nat) (hs : c.state = .connected) (hdue : c.due s.cfg s.time) :
    tickCell s k c = ({ c with state := .disconnected }, [.notify k c.remote c.state .disconnected]) := by
  rw [tickCell, hs]
  exact if_pos ((due_iff_of_connected hs).1 hdue)

/-- S4 and S11 of 45_connection_fsm.md R182. -/
theorem tickCell_of_retry (k : Nat) (hs : c.state = .connecting ∨ c.state = .disconnecting)
    (hdue : c.due s.cfg s.time) (hn : c.retryCount.toNat < s.cfg.maxRetries) :
    tickCell s k c =
      ({ c with retryCount := c.retryCount + 1, lastActivity := s.now }, [.tx (pendingWire s c)]) := by
  replace hdue := (due_iff_of_pending hs).1 hdue
  rw [tickCell, pendingWire]
  rcases hs with hs | hs <;> rw [hs] <;> exact (if_pos hdue).trans (if_pos hn)

/-- S5 and S12 of 45_connection_fsm.md R182. -/
theorem tickCell_of_spent (k : Nat) (hs : c.state = .connecting ∨ c.state = .disconnecting)
    (hdue : c.due s.cfg s.time) (hn : s.cfg.maxRetries ≤ c.retryCount.toNat) :
    tickCell s k c = ({ c with state := .disconnected }, [.notify k c.remote c.state .disconnected]) := by
  replace hdue := (due_iff_of_pending hs).1 hdue
  rw [tickCell]
  rcases hs with hs | hs <;> rw [hs] <;> exact (if_pos hdue).trans (if_neg (Nat.not_lt.mpr hn))

/-- What TICK can do to a slot: nothing, RETRY, GIVE_UP or IDLE_DROP (45_connection_fsm.md R183). -/
theorem tickCell_cases (s : State) (k : Nat) (c : Slot) :
    tickCell s k c = (c, []) ∨
    ((c.state = .connecting ∨ c.state = .disconnecting) ∧ c.due s.cfg s.time ∧
      c.retryCount.toNat < s.cfg.maxRetries ∧
      tickCell s k c =
        ({ c with retryCount := c.retryCount + 1, lastActivity := s.now }, [.tx (pendingWire s c)])) ∨
    ((c.state = .connecting ∨ c.state = .disconnecting) ∧ c.due s.cfg s.time ∧
      s.cfg.maxRetries ≤ c.retryCount.toNat ∧
      tickCell s k c = ({ c with state := .disconnected }, [.notify k c.remote c.state .disconnected])) ∨
    (c.state = .connected ∧ c.due s.cfg s.time ∧
      tickCell s k c = ({ c with state := .disconnected }, [.notify k c.remote c.state .disconnected])) := by
  by_cases hdue : c.due s.cfg s.time
  · obtain hs | hs | hs := ConnState.disconnected_or_connected_or_pending c.state
    · exact .inl (tickCell_of_disconnected s k hs)
    · exact .inr (.inr (.inr ⟨hs, hdue, tickCell_of_idle k hs hdue⟩))
    · rcases Nat.lt_or_ge c.retryCount.toNat s.cfg.maxRetries with hn | hn
      · exact .inr (.inl ⟨hs, hdue, hn, tickCell_of_retry k hs hdue hn⟩)
      · exact .inr (.inr (.inl ⟨hs, hdue, hn, tickCell_of_spent k hs hdue hn⟩))
  · exact .inl (tickCell_of_not_due k hdue)

/-! ### A second TICK -/

/-- A pending slot whose activity is of now is not due (00_scope.md R7 makes the timeout at least 1). -/
theorem not_due_of_touched (hv : s.cfg.valid = true) (hs : c.state = .connecting ∨ c.state = .disconnecting)
    (hlast : c.lastActivity = s.now) : ¬ c.due s.cfg s.time := by
  have hnow : elapsed s.cfg.tsW (s.time % 2 ^ s.cfg.tsW) s.now = 0 :=
    (elapsed_sampled s.cfg.tsW le_rfl).trans (by rw [Nat.sub_self, Nat.zero_mod])
  have hpos : 1 ≤ s.cfg.retryTimeout := by
    simp only [Config.valid, Bool.and_eq_true, decide_eq_true_eq] at hv
    omega
  rw [due_iff_of_pending hs, hlast, hnow]
  omega

/-- What its cell makes of a slot is not due at the same time: the slot was not, or its activity has been recorded now, or
it is DISCONNECTED (45_connection_fsm.md R183). -/
theorem tickCell_again (hv : s.cfg.valid = true) (k : Nat) (c : Slot) :
    tickCell s k (tickCell s k c).1 = ((tickCell s k c).1, []) := by
  obtain h | ⟨hs, -, -, h⟩ | ⟨-, -, -, h⟩ | ⟨-, -, h⟩ := tickCell_cases s k c <;> rw [h]
  · exact h
  · exact tickCell_of_not_due k (not_due_of_touched hv hs rfl)
  · exact tickCell_of_disconnected s k rfl
  · exact tickCell_of_disconnected s k rfl

end TickCell

/-- TICK where every cell leaves its slot alone. -/
theorem ticked_of_settled {s : State} (h : ∀ (k : Nat) (c : Slot), s.conn[k]? = some c → tickCell s k c = (c, [])) :
    s.ticked = s := by
  have hcell : ∀ p ∈ s.conn.zipIdx, tickCell s p.2 p.1 = (p.1, []) :=
    fun p hp => h p.2 p.1 (List.mem_zipIdx_iff_getElem?.1 hp)
  have hconn : s.conn.zipIdx.map (fun p => (tickCell s p.2 p.1).1) = s.conn := by
    rw [List.map_congr_left (g := Prod.fst) fun p hp => by rw [hcell p hp]]
    exact List.zipIdx_map_fst 0 s.conn
  have hout : s.conn.zipIdx.flatMap (fun p => (tickCell s p.2 p.1).2) = [] :=
    List.flatMap_eq_nil_iff.2 fun p hp => by rw [hcell p hp]
  rw [State.ticked, hconn, hout, List.append_nil]

/-- Settles O38: TICK leaves every slot settled at its own time. -/
theorem tickIsIdempotent : Obligations.TickIsIdempotent := by
  intro s t hv ht
  rw [exec_tick] at ht
  cases ht
  have hsettled : s.ticked.ticked = s.ticked := ticked_of_settled fun k d hd => by
    obtain ⟨hk, -⟩ := List.getElem?_eq_some_iff.1 hd
    have hc : s.conn[k]? = some (s.conn[k]'(by simpa [State.ticked] using hk)) := List.getElem?_eq_getElem _
    rw [ticked_slot hc] at hd
    cases hd
    exact tickCell_again hv k _
  rw [exec_tick, hsettled]

/-! ### The rows of the transition matrix, with their outputs -/

/-- A row of 45_connection_fsm.md R182 at slot `k`: by event `op` in state `s` the slot goes from `c` to `d` with outputs
`os`. The rows of `IsRow`, each with what it outputs. -/
inductive MatrixRow (s : State) (op : Instr) (k : Nat) (c : Slot) : Slot → List Output → Prop
  /-- S1. -/
  | connect (r : Addr) (hop : op = .cmdConnect r) (hnew : s.find r = none) (hs : c.state = .disconnected) :
      MatrixRow s op k c { state := .connecting, remote := r, lastActivity := s.now, retryCount := 0 }
        [.tx (ctlWire s .link r), .notify k r .disconnected .connecting, .status .ok]
  /-- S2. -/
  | opened (r : Addr) (hin : InboundFrom s op r 0x02) (hnew : s.find r = none) (hs : c.state = .disconnected) :
      MatrixRow s op k c { state := .connected, remote := r, lastActivity := s.now, retryCount := 0 }
        [.tx (ctlWire s .ack r), .notify k r .disconnected .connected]
  /-- S3. -/
  | confirmed (hin : InboundFrom s op c.remote 0x04) (hs : c.state = .connecting) :
      MatrixRow s op k c { c with state := .connected, lastActivity := s.now }
        [.notify k c.remote .connecting .connected]
  /-- S4, S11. -/
  | retry (hop : op = .tick) (hs : c.state = .connecting ∨ c.state = .disconnecting) (hdue : c.due s.cfg s.time)
      (hn : c.retryCount.toNat < s.cfg.maxRetries) :
      MatrixRow s op k c { c with retryCount := c.retryCount + 1, lastActivity := s.now } [.tx (pendingWire s c)]
  /-- S5, S12. -/
  | giveUp (hop : op = .tick) (hs : c.state = .connecting ∨ c.state = .disconnecting) (hdue : c.due s.cfg s.time)
      (hn : s.cfg.maxRetries ≤ c.retryCount.toNat) :
      MatrixRow s op k c { c with state := .disconnected } [.notify k c.remote c.state .disconnected]
  /-- S6. -/
  | disconnect (hop : op = .cmdDisconnect c.remote) (hs : c.state = .connected) :
      MatrixRow s op k c { c with state := .disconnecting, lastActivity := s.now, retryCount := 0 }
        [.tx (ctlWire s .unlink c.remote), .notify k c.remote .connected .disconnecting, .status .ok]
  /-- S7. -/
  | closed (hin : InboundFrom s op c.remote 0x03) (hs : c.state = .connected) :
      MatrixRow s op k c { c with state := .disconnected }
        [.tx (ctlWire s .ack c.remote), .notify k c.remote .connected .disconnected]
  /-- S8. -/
  | delivered (payload : List Byte) (hin : InboundFrom s op c.remote 0x01) (hs : c.state = .connected) :
      MatrixRow s op k c { c with lastActivity := s.now }
        (.deliver c.remote payload :: if s.cfg.ackOnData then [.tx (ctlWire s .ack c.remote)] else [])
  /-- S9. -/
  | idleDrop (hop : op = .tick) (hs : c.state = .connected) (hdue : c.due s.cfg s.time) :
      MatrixRow s op k c { c with state := .disconnected } [.notify k c.remote c.state .disconnected]
  /-- S10. -/
  | released (hin : InboundFrom s op c.remote 0x04) (hs : c.state = .disconnecting) :
      MatrixRow s op k c { c with state := .disconnected } [.notify k c.remote .disconnecting .disconnected]
  /-- CMD_SEND. -/
  | send (payload : List Byte) (hop : op = .cmdSend c.remote payload) (hs : c.state = .connected) :
      MatrixRow s op k c { c with lastActivity := s.now }
        [.tx (wireOf s.cfg { receiver := c.remote, sender := s.localAddr, type := .data, payload := payload }),
          .status .ok]
  /-- CMD_ABORT. -/
  | abort (hop : op = .cmdAbort c.remote) (hs : c.state ≠ .disconnected) :
      MatrixRow s op k c { c with state := .disconnected } [.notify k c.remote c.state .disconnected, .status .ok]

/-- The rows with their outputs left out are the rows of the statement. -/
theorem MatrixRow.isRow {s : State} {op : Instr} {k : Nat} {c d : Slot} {os : List Output}
    (h : MatrixRow s op k c d os) : IsRow s op c d := by
  unfold IsRow
  cases h with
  | connect r hop hnew hs => exact .inl ⟨r, hop, hnew, hs, rfl⟩
  | opened r hin hnew hs =>
    iterate 1 right
    exact .inl ⟨r, hin, hnew, hs, rfl⟩
  | confirmed hin hs =>
    iterate 2 right
    exact .inl ⟨hin, hs, rfl⟩
  | retry hop hs hdue hn =>
    iterate 3 right
    exact .inl ⟨hop, hs, (due_iff_of_pending hs).1 hdue, hn, rfl⟩
  | giveUp hop hs hdue hn =>
    iterate 4 right
    exact .inl ⟨hop, hs, (due_iff_of_pending hs).1 hdue, hn, rfl⟩
  | disconnect hop hs =>
    iterate 5 right
    exact .inl ⟨hop, hs, rfl⟩
  | closed hin hs =>
    iterate 6 right
    exact .inl ⟨hin, hs, rfl⟩
  | delivered payload hin hs =>
    iterate 7 right
    exact .inl ⟨hin, hs, rfl⟩
  | idleDrop hop hs hdue =>
    iterate 8 right
    exact .inl ⟨hop, hs, (due_iff_of_connected hs).1 hdue, rfl⟩
  | released hin hs =>
    iterate 9 right
    exact .inl ⟨hin, hs, rfl⟩
  | send payload hop hs =>
    iterate 10 right
    exact .inl ⟨payload, hop, hs, rfl⟩
  | abort hop hs =>
    iterate 10 right
    exact .inr ⟨hop, hs, rfl⟩

/-- Slot `k` is as before with no output, or it took a row. -/
def StaysOrTakesRow (s : State) (op : Instr) (k : Nat) (c d : Slot) (os : List Output) : Prop :=
  (d = c ∧ os = []) ∨ MatrixRow s op k c d os

/-- The TICK cells are the rows S4, S5, S9, S11, S12. -/
theorem tickCell_row (s : State) (k : Nat) (c : Slot) :
    StaysOrTakesRow s .tick k c (tickCell s k c).1 (tickCell s k c).2 := by
  obtain h | ⟨hs, hdue, hn, h⟩ | ⟨hs, hdue, hn, h⟩ | ⟨hs, hdue, h⟩ := tickCell_cases s k c <;> rw [h]
  · exact .inl ⟨rfl, rfl⟩
  · exact .inr (.retry rfl hs hdue hn)
  · exact .inr (.giveUp rfl hs hdue hn)
  · exact .inr (.idleDrop rfl hs hdue)

/-- The inbound cells of a slot in use are the rows S3, S7, S8, S10, for a frame a received byte completes. -/
theorem inboundCell_row {s : State} {op : Instr} {c : Slot} {f : RxFrame} (k : Nat) (hlive : c.live = true)
    (hin : InboundFrom s op c.remote f.type8) :
    StaysOrTakesRow s op k c (inboundCell s k c f).1 (inboundCell s k c f).2 := by
  obtain ⟨st, r, last, n⟩ := c
  rw [inboundCell]
  cases st with
  | disconnected => cases hlive
  | connecting =>
    dsimp only
    split
    · next ht => exact .inr (.confirmed (ht ▸ hin) rfl)
    · exact .inl ⟨rfl, rfl⟩
  | connected =>
    dsimp only
    split
    · next ht => exact .inr (.closed (ht ▸ hin) rfl)
    · split
      · next ht => exact .inr (.delivered f.payload (ht ▸ hin) rfl)
      · exact .inl ⟨rfl, rfl⟩
  | disconnecting =>
    dsimp only
    split
    · next ht => exact .inr (.released (ht ▸ hin) rfl)
    · exact .inl ⟨rfl, rfl⟩

/-! ### What an agents' event does to the connections -/

/-- A report of success or failure: neither a frame nor a payload. -/
def Output.IsReport (o : Output) : Prop := (∃ st, o = .status st) ∨ ∃ e, o = .frameErr e

theorem Failure.isReport_report (e : Failure) : e.report.IsReport := by
  cases e with
  | frameTooShort => exact .inr ⟨_, rfl⟩
  | invalidDelimiters => exact .inr ⟨_, rfl⟩
  | lengthMismatch => exact .inr ⟨_, rfl⟩
  | notConnected => exact .inl ⟨_, rfl⟩
  | alreadyPending => exact .inl ⟨_, rfl⟩
  | alreadyConnected => exact .inl ⟨_, rfl⟩
  | noFreeSlot => exact .inl ⟨_, rfl⟩

/-- From `s` to `t` each slot stays or takes a row of the matrix by event `op`, and an output is a report or one of a row
taken. -/
structure TakesRows (s : State) (op : Instr) (t : State) : Prop where
  slots : ∀ (k : Nat) (c : Slot), s.conn[k]? = some c → ∃ d, t.conn[k]? = some d ∧ ∃ os, StaysOrTakesRow s op k c d os
  outputs : ∃ os, t.out = s.out ++ os ∧ ∀ o ∈ os, o.IsReport ∨
    ∃ k c d ps, s.conn[k]? = some c ∧ t.conn[k]? = some d ∧ MatrixRow s op k c d ps ∧ o ∈ ps

namespace TakesRows

variable {s t : State} {op : Instr}

/-- The connections and the outputs stay as they are. -/
theorem of_idle (hconn : t.conn = s.conn) (hout : t.out = s.out) : TakesRows s op t where
  slots k c hc := ⟨c, hconn ▸ hc, [], .inl ⟨rfl, rfl⟩⟩
  outputs := ⟨[], by simp [hout], by simp⟩

/-- Only a report is output. -/
theorem of_report {o : Output} (ho : o.IsReport) (hconn : t.conn = s.conn) (hout : t.out = s.out ++ [o]) :
    TakesRows s op t where
  slots k c hc := ⟨c, hconn ▸ hc, [], .inl ⟨rfl, rfl⟩⟩
  outputs := ⟨[o], hout, fun p hp => .inl (by rwa [List.mem_singleton.1 hp])⟩

/-- One slot stays or takes a row, the others stay. -/
theorem of_slot {i : Nat} {c d : Slot} {os : List Output} (hc : s.conn[i]? = some c)
    (h : StaysOrTakesRow s op i c d os) (hconn : t.conn = s.conn.set i d) (hout : t.out = s.out ++ os) :
    TakesRows s op t where
  slots k e he := by
    by_cases hk : i = k
    · subst hk
      obtain rfl : c = e := Option.some.inj (hc.symm.trans he)
      exact ⟨d, by rw [hconn, List.getElem?_set_self (slot_lt hc)], os, h⟩
    · exact ⟨e, by rw [hconn, List.getElem?_set_ne hk, he], [], .inl ⟨rfl, rfl⟩⟩
  outputs := by
    refine ⟨os, hout, fun o ho => .inr ?_⟩
    obtain ⟨-, rfl⟩ | hrow := h
    · simp at ho
    · exact ⟨i, c, d, os, hc, by rw [hconn, List.getElem?_set_self (slot_lt hc)], hrow, ho⟩

/-- TICK: every slot stays or takes a row. -/
theorem ticked (s : State) : TakesRows s .tick s.ticked where
  slots k c hc := ⟨_, ticked_slot hc, _, tickCell_row s k c⟩
  outputs := by
    refine ⟨_, rfl, fun o ho => .inr ?_⟩
    obtain ⟨⟨c, k⟩, hmem, ho⟩ := List.mem_flatMap.1 ho
    have hc : s.conn[k]? = some c := List.mem_zipIdx_iff_getElem?.1 hmem
    obtain ⟨-, hnil⟩ | hrow := tickCell_row s k c
    · dsimp only at ho
      simp [hnil] at ho
    · exact ⟨k, c, _, _, hc, ticked_slot hc, hrow, ho⟩

end TakesRows

/-- ROUTE: nothing; a frame to this node from a peer that has a slot follows the matrix there; a LINK from one that has
none opens the least free slot (44_frame_deserializer.md R153). -/
theorem exec_route_next {s t : State} {f : RxFrame} (h : exec (.route f) s = .next t) :
    t = s ∨ f.receiver8 = addrByte s.localAddr ∧
      ((∃ i c, s.conn[i]? = some c ∧ c.live = true ∧ f.sender8 = addrByte c.remote ∧ t = s.afterInbound i c f) ∨
       ∃ j c r, s.conn[j]? = some c ∧ c.state = .disconnected ∧ s.find r = none ∧ f.sender8 = addrByte r ∧
         f.type8 = typeLink ∧
         t = s.putSlot j { state := .connected, remote := r, lastActivity := s.now, retryCount := 0 }
           [.tx (ctlWire s .ack r), .notify j r .disconnected .connected]) := by
  rcases Nat.lt_or_ge f.sender8.toNat 0x80 with hsender | hhigh
  case inr =>
    rw [exec_route_of_no_address hhigh] at h
    cases h
    exact .inl rfl
  by_cases hreceiver : f.receiver8 = addrByte s.localAddr
  case neg =>
    rw [exec_route_of_other_receiver hreceiver] at h
    cases h
    exact .inl rfl
  obtain ⟨hknown, hnew⟩ := routeFollowsInboundMatrix s f hsender hreceiver
  have haddr := addrByte_byteAddr hsender
  cases hfind : s.find (byteAddr f.sender8) with
  | some i =>
    obtain ⟨c, hc, hlive, hpeer⟩ := State.find_eq_some hfind
    rw [hknown i c hfind hc] at h
    cases h
    exact .inr ⟨hreceiver, .inl ⟨i, c, hc, hlive, by rw [hpeer, haddr], rfl⟩⟩
  | none =>
    by_cases htype : f.type8 = typeLink
    · cases hfree : s.free with
      | none =>
        rw [exec_route_of_full hsender hreceiver hfind htype hfree] at h
        cases h
        exact .inl rfl
      | some j =>
        obtain ⟨c, hc, hs⟩ := State.free_eq_some hfree
        rw [hnew j hfind hfree htype] at h
        cases h
        exact .inr ⟨hreceiver, .inr ⟨j, c, byteAddr f.sender8, hc, hs, hfind, haddr.symm, htype, rfl⟩⟩
    · rw [exec_route_of_unknown hsender hreceiver hfind htype] at h
      cases h
      exact .inl rfl

/-- A received byte changes the deframer and the buffer only, or it completes the buffer, which is then judged
(42_byte_marker_codec.md R124, 44_frame_deserializer.md R151). -/
theorem bmRxByteOp_judges {s t : State} {b : Byte} (h : bmRxByteOp s b = .next t) :
    (t.conn = s.conn ∧ t.out = s.out) ∨
    ∃ u r, ReceiverStep s u ∧ frameDone u r = .next t ∧
      ∀ f, r = .ok f → f.receiver8 = addrByte s.localAddr → CompletesFrame s b f := by
  obtain ⟨-, ⟨-, rfl⟩ | ⟨-, rfl⟩⟩ | ⟨-, rfl⟩ | ⟨hpos, ⟨-, rfl⟩ | ⟨-, -, rfl⟩ | ⟨hb, hupper, hpush⟩⟩ :=
    bmRxByteOp_next h
  iterate 5 exact .inl ⟨rfl, rfl⟩
  obtain ⟨hroom, ⟨rfl, -⟩ | ⟨len, bytes, -, -, -, hread, hdone⟩⟩ := faPushOp_next hpush
  · exact .inl ⟨rfl, rfl⟩
  · have hcount : (s.faCount + 1).toNat = s.faCount.toNat + 1 := by
      dsimp only [frameMax] at hroom
      bv_omega
    obtain ⟨bs, hbs, rfl⟩ := memRead_bufInsert_split (hcount ▸ hread)
    refine .inr ⟨_, _, ⟨rfl, fun hbuf => .cleared ?_ rfl⟩, hdone,
      fun f hf hreceiver => ⟨hpos, hb, hupper, ⟨bs, hbs, hf⟩, hreceiver⟩⟩
    exact bufSorted_bufInsert _ hbuf.canonical (Nat.zero_le _) hroom

/-- The rules read the configuration, the address, the time and the slots, none of which a received byte has changed
before its frame is judged. -/
theorem ReceiverStep.afterInbound_eq {s u : State} (h : ReceiverStep s u) (i : Nat) (c : Slot) (f : RxFrame) :
    u.afterInbound i c f = u.putSlot i (inboundCell s i c f).1 (inboundCell s i c f).2 := by
  rw [h.frame]
  rfl

theorem ReceiverStep.find_eq {s u : State} (h : ReceiverStep s u) (r : Addr) : u.find r = s.find r := by
  rw [State.find, State.find, h.conn_eq]

theorem bmRxByteOp_takesRows {s t : State} {b : Byte} (h : bmRxByteOp s b = .next t) :
    TakesRows s (.bmRxByte b) t := by
  obtain ⟨hconn, hout⟩ | ⟨u, r, hu, hdone, hcompletes⟩ := bmRxByteOp_judges h
  · exact .of_idle hconn hout
  cases r with
  | fail e =>
    cases hdone
    exact .of_report e.isReport_report hu.conn_eq (congrArg (· ++ [e.report]) hu.out_eq)
  | ok f =>
    rw [frameDone_ok] at hdone
    split at hdone
    case isFalse =>
      cases hdone
      exact .of_idle hu.conn_eq hu.out_eq
    obtain rfl | ⟨hreceiver, hrow⟩ := exec_route_next hdone
    · exact .of_idle hu.conn_eq hu.out_eq
    have hcomplete : CompletesFrame s b f := hcompletes f rfl (hu.sameSetting.localAddr ▸ hreceiver)
    obtain ⟨i, c, hc, hlive, hsender, rfl⟩ | ⟨j, c, r, hc, hs, hnone, hsender, htype, rfl⟩ := hrow
    · rw [hu.conn_eq] at hc
      rw [hu.afterInbound_eq]
      exact .of_slot hc (inboundCell_row i hlive ⟨b, f, rfl, hcomplete, rfl, hsender⟩)
        (by rw [State.putSlot, hu.conn_eq]) (by rw [State.putSlot, hu.out_eq])
    · rw [hu.conn_eq] at hc
      rw [hu.find_eq] at hnone
      have hopened := MatrixRow.opened (k := j) r ⟨b, f, rfl, hcomplete, htype, hsender⟩ hnone hs
      exact .of_slot hc (.inr hopened) (by rw [hu.frame]; rfl) (by rw [hu.frame]; rfl)

/-- RX_TIMEOUT touches the deframer only (42_byte_marker_codec.md R125). -/
theorem execBmRxTimeout_keeps {s t : State} (h : execBmRxTimeout s = .next t) : t.conn = s.conn ∧ t.out = s.out := by
  unfold execBmRxTimeout at h
  split at h <;> cases h <;> exact ⟨rfl, rfl⟩

theorem execCmdConnect_takesRows {s t : State} {r : Addr} (h : execCmdConnect r s = .next t) :
    TakesRows s (.cmdConnect r) t := by
  cases hf : s.find r with
  | some i =>
    rw [execCmdConnect_of_known hf] at h
    cases h
    exact .of_report (Failure.isReport_report _) rfl rfl
  | none =>
    cases hj : s.free with
    | none =>
      rw [execCmdConnect_of_full hf hj] at h
      cases h
      exact .of_report (Failure.isReport_report _) rfl rfl
    | some j =>
      obtain ⟨c, hc, hs⟩ := State.free_eq_some hj
      rw [execCmdConnect_of_free hf hj hc hs] at h
      cases h
      exact .of_slot hc (.inr (.connect r rfl hf hs)) rfl rfl

/-- The slot that `find(r)` names is in use for `r`. -/
theorem State.slot_of_find {s : State} {r : Addr} {i : Nat} {c : Slot} (hf : s.find r = some i)
    (hc : s.conn[i]? = some c) : c.live = true ∧ c.remote = r := by
  obtain ⟨d, hd, hlive, hr⟩ := State.find_eq_some hf
  obtain rfl : d = c := Option.some.inj (hd.symm.trans hc)
  exact ⟨hlive, hr⟩

/-- A peer whose `cstate` is CONNECTED is the peer of the slot that `find` names. -/
theorem State.connected_slot {s : State} {r : Addr} (h : s.cstate r = .connected) :
    ∃ i c, s.find r = some i ∧ s.conn[i]? = some c ∧ c.state = .connected ∧ c.remote = r := by
  obtain ⟨i, c, hf, hc, hs, -⟩ := State.cstate_eq_connected h
  obtain ⟨-, hr⟩ := State.slot_of_find hf hc
  exact ⟨i, c, hf, hc, hs, hr⟩

theorem execCmdDisconnect_takesRows {s t : State} {r : Addr} (h : execCmdDisconnect r s = .next t) :
    TakesRows s (.cmdDisconnect r) t := by
  by_cases hst : s.cstate r = .connected
  · obtain ⟨i, c, hf, hc, hs, rfl⟩ := State.connected_slot hst
    rw [execCmdDisconnect_of_connected hf hc hs] at h
    cases h
    exact .of_slot hc (.inr (.disconnect rfl hs)) rfl rfl
  · rw [execCmdDisconnect_of_not_connected hst] at h
    cases h
    exact .of_report (Failure.isReport_report _) rfl rfl

theorem execCmdSend_takesRows {s t : State} {r : Addr} {payload : List Byte}
    (h : execCmdSend r payload s = .next t) : TakesRows s (.cmdSend r payload) t := by
  by_cases hst : s.cstate r = .connected
  · obtain ⟨i, c, hf, hc, hs, rfl⟩ := State.connected_slot hst
    rw [execCmdSend_of_connected hf hc hs] at h
    cases h
    exact .of_slot hc (.inr (.send payload rfl hs)) rfl rfl
  · rw [execCmdSend_of_not_connected hst] at h
    cases h
    exact .of_report (Failure.isReport_report _) rfl rfl

theorem execCmdAbort_takesRows {s t : State} {r : Addr} (h : execCmdAbort r s = .next t) :
    TakesRows s (.cmdAbort r) t := by
  cases hf : s.find r with
  | none =>
    rw [execCmdAbort_of_unknown hf] at h
    cases h
    exact .of_report (.inl ⟨.ok, rfl⟩) rfl rfl
  | some i =>
    obtain ⟨c, hc, hlive, rfl⟩ := State.find_eq_some hf
    rw [execCmdAbort_of_live hf hc hlive] at h
    cases h
    exact .of_slot hc (.inr (.abort rfl ((Slot.live_iff c).1 hlive))) rfl rfl

/-- An agents' event does to the connections what rows of the matrix say (45_connection_fsm.md R182). -/
theorem exec_agentEvent_takesRows {op : Instr} {s t : State} (ha : op.agentEvent = true) (h : exec op s = .next t) :
    TakesRows s op t := by
  cases op with
  | bmRxByte b => exact bmRxByteOp_takesRows h
  | bmRxTimeout =>
    obtain ⟨hconn, hout⟩ := execBmRxTimeout_keeps h
    exact .of_idle hconn hout
  | cmdConnect r => exact execCmdConnect_takesRows h
  | cmdDisconnect r => exact execCmdDisconnect_takesRows h
  | cmdSend r payload => exact execCmdSend_takesRows h
  | cmdAbort r => exact execCmdAbort_takesRows h
  | tick =>
    rw [exec_tick] at h
    cases h
    exact .ticked s
  | _ => cases ha

/-- Settles O44: the rows taken, their outputs left out. -/
theorem everySlotChangeIsARowOfTheMatrix : Obligations.EverySlotChangeIsARowOfTheMatrix := by
  intro s t op k c ha h hc
  obtain ⟨d, hd, os, ⟨rfl, -⟩ | hrow⟩ := (exec_agentEvent_takesRows ha h).slots k c hc
  · exact ⟨d, hd, .inl rfl⟩
  · exact ⟨d, hd, .inr hrow.isRow⟩
/-! ### Frames emitted and payloads delivered -/

/-- The slot is in use for `r` before or after it goes from `c` to `d`. -/
def UsedFor (c d : Slot) (r : Addr) : Prop :=
  (c.state ≠ .disconnected ∧ c.remote = r) ∨ (d.state ≠ .disconnected ∧ d.remote = r)

/-- The frame on the wire `w` is one the event may emit while a slot goes from `c` to `d` (45_connection_fsm.md
R189 (c), (d)). -/
def MayEmit (s : State) (op : Instr) (c d : Slot) (w : List Byte) : Prop :=
  ∃ f : Frame, w = bmEncOp s.cfg (serializeOp s.cfg f) ∧ f.sender = s.localAddr ∧
    UsedFor c d f.receiver ∧ f.type ≠ .retryRequest ∧
    (f.type = .data → ∃ p, op = .cmdSend f.receiver p ∧ f.payload = p) ∧
    (f.type = .ack → InboundFrom s op f.receiver 0x02 ∨ InboundFrom s op f.receiver 0x03 ∨
      (s.cfg.ackOnData = true ∧ InboundFrom s op f.receiver 0x01)) ∧
    (f.type = .link → op = .cmdConnect f.receiver ∨ op = .tick) ∧
    (f.type = .unlink → op = .cmdDisconnect f.receiver ∨ op = .tick)

section Emits

variable {s : State} {op : Instr} {k : Nat} {c d : Slot} {os : List Output} {w : List Byte} {r : Addr}

theorem mayEmit_ack (hin : InboundFrom s op r 0x02 ∨ InboundFrom s op r 0x03 ∨
      (s.cfg.ackOnData = true ∧ InboundFrom s op r 0x01)) (huse : UsedFor c d r) :
    MayEmit s op c d (ctlWire s .ack r) :=
  ⟨s.ctl .ack r, rfl, rfl, huse, nofun, nofun, fun _ => hin, nofun, nofun⟩

theorem mayEmit_link (hop : op = .cmdConnect r ∨ op = .tick) (huse : UsedFor c d r) :
    MayEmit s op c d (ctlWire s .link r) :=
  ⟨s.ctl .link r, rfl, rfl, huse, nofun, nofun, nofun, fun _ => hop, nofun⟩

theorem mayEmit_unlink (hop : op = .cmdDisconnect r ∨ op = .tick) (huse : UsedFor c d r) :
    MayEmit s op c d (ctlWire s .unlink r) :=
  ⟨s.ctl .unlink r, rfl, rfl, huse, nofun, nofun, nofun, nofun, fun _ => hop⟩

theorem mayEmit_pending (hop : op = .tick) (hs : c.state = .connecting ∨ c.state = .disconnecting) :
    MayEmit s op c d (pendingWire s c) := by
  rw [pendingWire]
  rcases hs with hs | hs
  · rw [if_pos hs]
    exact mayEmit_link (.inr hop) (.inl ⟨by simp [hs], rfl⟩)
  · rw [if_neg (by simp [hs])]
    exact mayEmit_unlink (.inr hop) (.inl ⟨by simp [hs], rfl⟩)

/-- Each row emits the frame of its event only. -/
theorem MatrixRow.mayEmit (h : MatrixRow s op k c d os) (hw : .tx w ∈ os) : MayEmit s op c d w := by
  cases h with
  | connect r hop hnew hs =>
    obtain rfl : w = ctlWire s .link r := by simpa using hw
    exact mayEmit_link (.inl hop) (.inr ⟨nofun, rfl⟩)
  | opened r hin hnew hs =>
    obtain rfl : w = ctlWire s .ack r := by simpa using hw
    exact mayEmit_ack (.inl hin) (.inr ⟨nofun, rfl⟩)
  | retry hop hs hdue hn =>
    obtain rfl : w = pendingWire s c := by simpa using hw
    exact mayEmit_pending hop hs
  | disconnect hop hs =>
    obtain rfl : w = ctlWire s .unlink c.remote := by simpa using hw
    exact mayEmit_unlink (.inl hop) (.inl ⟨by simp [hs], rfl⟩)
  | closed hin hs =>
    obtain rfl : w = ctlWire s .ack c.remote := by simpa using hw
    exact mayEmit_ack (.inr (.inl hin)) (.inl ⟨by simp [hs], rfl⟩)
  | delivered payload hin hs =>
    obtain ⟨hack, rfl⟩ : s.cfg.ackOnData = true ∧ w = ctlWire s .ack c.remote := by simpa using hw
    exact mayEmit_ack (.inr (.inr ⟨hack, hin⟩)) (.inl ⟨by simp [hs], rfl⟩)
  | send payload hop hs =>
    obtain rfl : w = wireOf s.cfg ⟨c.remote, s.localAddr, .data, payload⟩ := by simpa using hw
    exact ⟨_, rfl, rfl, .inl ⟨by simp [hs], rfl⟩, nofun, fun _ => ⟨payload, hop, rfl⟩, nofun, nofun, nofun⟩
  | confirmed hin hs => simp at hw
  | giveUp hop hs hdue hn => simp at hw
  | idleDrop hop hs hdue => simp at hw
  | released hin hs => simp at hw
  | abort hop hs => simp at hw

/-- Only the row S8 delivers, and only what its peer sent. -/
theorem MatrixRow.delivers (h : MatrixRow s op k c d os) {payload : List Byte} (hp : .deliver r payload ∈ os) :
    InboundFrom s op r 0x01 ∧ c.state = .connected ∧ c.remote = r := by
  cases h with
  | delivered payload' hin hs =>
    obtain ⟨rfl, -⟩ : r = c.remote ∧ payload = payload' := by simpa using hp
    exact ⟨hin, hs, rfl⟩
  | _ => simp at hp

end Emits

theorem Output.IsReport.ne_tx {o : Output} (h : o.IsReport) (w : List Byte) : o ≠ .tx w := by
  obtain ⟨st, rfl⟩ | ⟨e, rfl⟩ := h <;> exact nofun

theorem Output.IsReport.ne_deliver {o : Output} (h : o.IsReport) (a : Addr) (p : List Byte) : o ≠ .deliver a p := by
  obtain ⟨st, rfl⟩ | ⟨e, rfl⟩ := h <;> exact nofun

/-- Settles O46: a `Tx` is no report, so it is an output of a row taken. -/
theorem emittedFramesComeFromThisNode : Obligations.EmittedFramesComeFromThisNode := by
  intro s t op ha h
  obtain ⟨os, hout, hos⟩ := (exec_agentEvent_takesRows ha h).outputs
  refine ⟨os, hout, fun w hw => ?_⟩
  obtain hreport | ⟨k, c, d, ps, hc, hd, hrow, hmem⟩ := hos _ hw
  · exact absurd rfl (hreport.ne_tx w)
  obtain ⟨f, hwire, hsender, huse, hrest⟩ := hrow.mayEmit hmem
  refine ⟨f, hwire, hsender, ?_, hrest⟩
  obtain hbefore | hafter := huse
  · exact ⟨c, .inl (List.mem_of_getElem? hc), hbefore⟩
  · exact ⟨d, .inr (List.mem_of_getElem? hd), hafter⟩

/-- Settles O47: a `Deliver` is no report, so it is an output of a row taken, the row S8. -/
theorem deliverOnlyInConnected : Obligations.DeliverOnlyInConnected := by
  intro s t op ha h
  obtain ⟨os, hout, hos⟩ := (exec_agentEvent_takesRows ha h).outputs
  refine ⟨os, hout, fun a p hp => ?_⟩
  obtain hreport | ⟨k, c, d, ps, hc, -, hrow, hmem⟩ := hos _ hp
  · exact absurd rfl (hreport.ne_deliver a p)
  obtain ⟨⟨b, f, hop, -⟩, hs, hr⟩ := hrow.delivers hmem
  exact ⟨⟨b, hop⟩, c, List.mem_of_getElem? hc, hs, hr⟩

/-! ### Runs of due ticks -/

/-- TICK's outputs around those of one slot (45_connection_fsm.md R183). -/
theorem tickOutputsAt_ticked {s : State} {k : Nat} {c : Slot} {os : List Output} (h : s.conn[k]? = some c)
    (hos : (tickCell s k c).2 = os) : TickOutputsAt s s.ticked k os := by
  have hsplit : s.conn.zipIdx = s.conn.zipIdx.take k ++ (c, k) :: s.conn.zipIdx.drop (k + 1) := by
    conv_lhs => rw [← List.take_append_drop (k + 1) s.conn.zipIdx, take_succ_zipIdx h]
    rw [List.append_assoc, List.singleton_append]
  have hall : s.conn.zipIdx.flatMap (fun p => (tickCell s p.2 p.1).2) =
      (s.conn.zipIdx.take k).flatMap (fun p => (tickCell s p.2 p.1).2) ++ os ++
        (s.conn.zipIdx.drop (k + 1)).flatMap (fun p => (tickCell s p.2 p.1).2) := by
    conv_lhs => rw [hsplit]
    simp [hos]
  rw [TickOutputsAt, State.ticked, hall]
  simp only [List.append_assoc]

section TickRuns

variable {s : State} {k : Nat} {c : Slot}

/-- TICK at real tick count `t`. -/
theorem tickAt_eq (t : Nat) (s : State) : tickAt t s = .next { s with time := t }.ticked := exec_tick _

theorem tickRun_cons (t : Nat) (ts : List Nat) (s : State) :
    tickRun (t :: ts) s = tickRun ts { s with time := t }.ticked := by
  rw [tickRun, tickAt_eq, andThen_next]

theorem tickRun_append (ts us : List Nat) (s : State) : tickRun (ts ++ us) s = andThen (tickRun ts s) (tickRun us) := by
  induction ts generalizing s with
  | nil => rfl
  | cons t ts ih => rw [List.cons_append, tickRun_cons, tickRun_cons, ih]

theorem tickRun_answers (ts : List Nat) (s : State) : ∃ t, tickRun ts s = .next t := by
  induction ts generalizing s with
  | nil => exact ⟨s, rfl⟩
  | cons t ts ih =>
    rw [tickRun_cons]
    exact ih _

/-- A slot last active at `t0` is due at a tick the timeout allows for (00_scope.md R16, 45_connection_fsm.md R188). -/
theorem due_of_retryTimes {cfg : Config} {t0 t : Nat} (hs : c.state = .connecting ∨ c.state = .disconnecting)
    (hlast : c.lastActivity = t0 % 2 ^ cfg.tsW) (hlow : t0 + cfg.retryTimeout ≤ t) (hhigh : t < t0 + 2 ^ cfg.tsW) :
    c.due cfg t := by
  rw [due_iff_of_pending hs, hlast, elapsed_sampled _ (by omega), Nat.mod_eq_of_lt (by omega)]
  omega

/-- The last tick of `before`, if there is one, is when the frame pending at the next one was emitted. -/
theorem retryTimes_split {cfg : Config} {before after : List Nat} {t0 : Nat}
    (h : RetryTimes cfg t0 (before ++ after)) :
    RetryTimes cfg t0 before ∧ RetryTimes cfg (before.getLastD t0) after := by
  induction before generalizing t0 with
  | nil => exact ⟨trivial, h⟩
  | cons t before ih =>
    obtain ⟨hlow, hhigh, hrest⟩ := h
    obtain ⟨hb, ha⟩ := ih hrest
    exact ⟨⟨hlow, hhigh, hb⟩, by rwa [List.getLastD_cons]⟩

/-- Slot `c` after `n` retries, the last at real tick count `t`. -/
def Slot.retried (c : Slot) (cfg : Config) (n t : Nat) : Slot :=
  { c with retryCount := BitVec.ofNat 8 n, lastActivity := t % 2 ^ cfg.tsW }

/-- In `u` slot `k` is `c` after `n` retries, the last at `t`; the configuration and the address are those of `s`. -/
structure Retried (s : State) (k : Nat) (c : Slot) (n t : Nat) (u : State) : Prop where
  slot : u.conn[k]? = some (c.retried s.cfg n t)
  cfg : u.cfg = s.cfg
  localAddr : u.localAddr = s.localAddr

namespace Retried

variable {u : State} {n t0 t : Nat} (h : Retried s k c n t0 u) (hs : c.state = .connecting ∨ c.state = .disconnecting)
  (hlow : t0 + s.cfg.retryTimeout ≤ t) (hhigh : t < t0 + 2 ^ s.cfg.tsW)
include h hs hlow hhigh

theorem due : (c.retried s.cfg n t0).due u.cfg t := by
  rw [h.cfg]
  exact due_of_retryTimes hs rfl hlow hhigh

/-- A due tick within the budget emits the frame once more. -/
theorem tickCell_retry (hmax : s.cfg.maxRetries ≤ 255) (hn : n < s.cfg.maxRetries) :
    tickCell { u with time := t } k (c.retried s.cfg n t0) =
      (c.retried s.cfg (n + 1) t, [.tx (pendingWire s c)]) := by
  have hcount : (c.retried s.cfg n t0).retryCount.toNat < u.cfg.maxRetries := by
    rw [h.cfg, Slot.retried, BitVec.toNat_ofNat]
    omega
  rw [tickCell_of_retry (s := { u with time := t }) (c := c.retried s.cfg n t0) k hs (h.due hs hlow hhigh) hcount]
  simp only [Slot.retried, State.now, pendingWire, ctlWire, h.cfg, h.localAddr, BitVec.ofNat_add]
  rfl

/-- The due tick after the budget is spent gives up. -/
theorem tickCell_spent (hmax : s.cfg.maxRetries ≤ 255) (hn : n = s.cfg.maxRetries) :
    tickCell { u with time := t } k (c.retried s.cfg n t0) =
      ({ c.retried s.cfg n t0 with state := .disconnected }, [.notify k c.remote c.state .disconnected]) := by
  have hcount : u.cfg.maxRetries ≤ (c.retried s.cfg n t0).retryCount.toNat := by
    rw [h.cfg, Slot.retried, BitVec.toNat_ofNat]
    omega
  exact tickCell_of_spent (s := { u with time := t }) (c := c.retried s.cfg n t0) k hs (h.due hs hlow hhigh) hcount

end Retried

section RetryRun

variable {t0 : Nat} (hmax : s.cfg.maxRetries ≤ 255) (hslot : s.conn[k]? = some c)
  (hs : c.state = .connecting ∨ c.state = .disconnecting) (hcount : c.retryCount = 0)
  (hlast : c.lastActivity = t0 % 2 ^ s.cfg.tsW)
include hmax hslot hs hcount hlast

/-- Within the budget each due tick is one retry (45_connection_fsm.md R188). -/
theorem tickRun_retries {ts : List Nat} (hts : RetryTimes s.cfg t0 ts) (hlen : ts.length ≤ s.cfg.maxRetries) :
    ∃ u, tickRun ts s = .next u ∧ Retried s k c ts.length (ts.getLastD t0) u := by
  induction ts using List.reverseRecOn with
  | nil =>
    have hself : c = c.retried s.cfg 0 t0 := by
      rw [Slot.retried, ← hlast, show BitVec.ofNat 8 0 = c.retryCount from hcount.symm]
    exact ⟨s, rfl, hslot.trans (congrArg some hself), rfl, rfl⟩
  | append_singleton ts t ih =>
    rw [List.length_append, List.length_singleton] at hlen ⊢
    obtain ⟨hbefore, hlow, hhigh, -⟩ := retryTimes_split hts
    obtain ⟨u, hrun, hu⟩ := ih hbefore (by omega)
    refine ⟨{ u with time := t }.ticked, by rw [tickRun_append, hrun, andThen_next, tickRun_cons]; rfl, ?_,
      hu.cfg, hu.localAddr⟩
    rw [ticked_slot (s := { u with time := t }) hu.slot, hu.tickCell_retry hs hlow hhigh hmax (by omega),
      List.getLastD_concat]

/-- What a due tick outputs for the slot: the pending frame within the budget, and then the Notify of the give-up. -/
theorem tickOutputs_of_retryTimes {before after : List Nat} {t : Nat}
    (hts : RetryTimes s.cfg t0 (before ++ t :: after)) (hlen : before.length ≤ s.cfg.maxRetries) :
    ∃ u v, tickRun before s = .next u ∧ tickAt t u = .next v ∧
      TickOutputsAt { u with time := t } v k
        (if before.length < s.cfg.maxRetries then [.tx (pendingWire s c)]
         else [.notify k c.remote c.state .disconnected]) := by
  obtain ⟨hbefore, hlow, hhigh, -⟩ := retryTimes_split hts
  obtain ⟨u, hrun, hu⟩ := tickRun_retries hmax hslot hs hcount hlast hbefore hlen
  refine ⟨u, _, hrun, tickAt_eq t u, ?_⟩
  split
  · next hn => exact tickOutputsAt_ticked hu.slot (by rw [hu.tickCell_retry hs hlow hhigh hmax hn])
  · next hn => exact tickOutputsAt_ticked hu.slot (by rw [hu.tickCell_spent hs hlow hhigh hmax (by omega)])

/-- One due tick after the budget is spent the slot is DISCONNECTED. -/
theorem tickRun_gives_up {ts : List Nat} (hts : RetryTimes s.cfg t0 ts) (hlen : ts.length = s.cfg.maxRetries + 1) :
    ∃ u, tickRun ts s = .next u ∧
      u.conn[k]? = some { c.retried s.cfg s.cfg.maxRetries (ts.dropLast.getLastD t0) with state := .disconnected } := by
  cases ts using List.reverseRecOn with
  | nil => simp at hlen
  | append_singleton ts t =>
    rw [List.length_append, List.length_singleton] at hlen
    obtain ⟨hbefore, hlow, hhigh, -⟩ := retryTimes_split hts
    obtain ⟨u, hrun, hu⟩ := tickRun_retries hmax hslot hs hcount hlast hbefore (by omega)
    refine ⟨{ u with time := t }.ticked, by rw [tickRun_append, hrun, andThen_next, tickRun_cons]; rfl, ?_⟩
    rw [ticked_slot (s := { u with time := t }) hu.slot, hu.tickCell_spent hs hlow hhigh hmax (by omega),
      List.dropLast_concat, Nat.succ.inj hlen]

end RetryRun

end TickRuns

/-- Settles O41: each due tick within the budget is a retry, and the next one gives up. -/
theorem retryBudgetIsSpentOneDueTickAtATime : Obligations.RetryBudgetIsSpentOneDueTickAtATime := by
  intro s k t0 c ts hmax hslot hs hcount hlast hts
  refine ⟨?_, fun before after t hsplit hlen =>
    tickOutputs_of_retryTimes hmax hslot hs hcount hlast (hsplit ▸ hts) hlen⟩
  obtain ⟨v, hv⟩ := tickRun_answers ts s
  refine ⟨v, hv, fun hlen => ?_, fun hlen => ?_⟩
  · obtain ⟨u, hrun, hu⟩ := tickRun_retries hmax hslot hs hcount hlast hts hlen
    obtain rfl : v = u := Host.Outcome.next.inj (hv.symm.trans hrun)
    exact hu.slot
  · obtain ⟨u, hrun, hu⟩ := tickRun_gives_up hmax hslot hs hcount hlast hts hlen
    obtain rfl : v = u := Host.Outcome.next.inj (hv.symm.trans hrun)
    exact hu

/-! ### Due ticks bring every slot down -/

/-- `m` due ticks bring the slot to DISCONNECTED: one for a CONNECTED slot, one for each retry left and one more for a
pending one (45_connection_fsm.md R189 (g)). -/
def Slot.DownWithin (cfg : Config) (m : Nat) (c : Slot) : Prop :=
  c.state = .disconnected ∨ (c.state = .connected ∧ 1 ≤ m) ∨
  ((c.state = .connecting ∨ c.state = .disconnecting) ∧ c.retryCount.toNat ≤ cfg.maxRetries ∧
    cfg.maxRetries < m + c.retryCount.toNat)

theorem Slot.DownWithin.zero {cfg : Config} {c : Slot} (h : c.DownWithin cfg 0) : c.state = .disconnected := by
  obtain h | ⟨-, hm⟩ | ⟨-, hle, hlt⟩ := h
  · exact h
  · omega
  · omega

/-- I-2 of 10_state.md R29 leaves at most `MAX_RETRIES` retries. -/
theorem Slot.DownWithin.of_retries {cfg : Config} {c : Slot} (h : c.retryCount.toNat ≤ cfg.maxRetries) :
    c.DownWithin cfg (cfg.maxRetries + 1) := by
  unfold Slot.DownWithin
  obtain hs | hs | hs := ConnState.disconnected_or_connected_or_pending c.state
  · exact .inl hs
  · exact .inr (.inl ⟨hs, by omega⟩)
  · exact .inr (.inr ⟨hs, h, by omega⟩)

/-- A due tick is one of them. -/
theorem Slot.DownWithin.tick {s : State} {m : Nat} {c : Slot} (hmax : s.cfg.maxRetries ≤ 255) (k : Nat)
    (h : c.DownWithin s.cfg (m + 1)) (hdue : c.due s.cfg s.time) : (tickCell s k c).1.DownWithin s.cfg m := by
  obtain hs | ⟨hs, -⟩ | ⟨hs, hle, hlt⟩ := h
  · rw [tickCell_of_disconnected s k hs]
    exact .inl hs
  · rw [tickCell_of_idle k hs hdue]
    exact .inl rfl
  · rcases Nat.lt_or_ge c.retryCount.toNat s.cfg.maxRetries with hn | hn
    · rw [tickCell_of_retry k hs hdue hn]
      have hcount : (c.retryCount + 1).toNat = c.retryCount.toNat + 1 := by bv_omega
      refine .inr (.inr ⟨hs, ?_, ?_⟩) <;> dsimp only <;> omega
    · rw [tickCell_of_spent k hs hdue hn]
      exact .inl rfl

/-- A due run of as many ticks as the slots need. -/
theorem tickRun_brings_down {ts : List Nat} {s : State} (hmax : s.cfg.maxRetries ≤ 255)
    (h : ∀ c ∈ s.conn, c.DownWithin s.cfg ts.length) (hdue : DueRun ts s) :
    ∃ t, tickRun ts s = .next t ∧ ∀ c ∈ t.conn, c.state = .disconnected := by
  induction ts generalizing s with
  | nil => exact ⟨s, rfl, fun c hc => (h c hc).zero⟩
  | cons t ts ih =>
    obtain ⟨hnow, hrest⟩ := hdue
    rw [tickRun_cons]
    refine ih (s := { s with time := t }.ticked) hmax (fun d hd => ?_) (hrest _ (tickAt_eq t s))
    obtain ⟨k, c, hc, rfl⟩ := mem_ticked hd
    have hmem : c ∈ s.conn := List.mem_of_getElem? hc
    exact (h c hmem).tick (s := { s with time := t }) hmax k (hnow c hmem)

/-- Settles O42: by I-2 every slot is down within `MAX_RETRIES + 1` due ticks. -/
theorem dueTicksBringEverySlotDown : Obligations.DueTicksBringEverySlotDown := by
  intro s ts hinv hlen hdue
  have hmax : s.cfg.maxRetries ≤ 255 := by
    have hok := hinv.config
    simp only [State.configOk, Config.valid, Bool.and_eq_true, decide_eq_true_eq] at hok
    omega
  exact tickRun_brings_down hmax (fun c hc => hlen ▸ .of_retries (hinv.table.retries c hc)) hdue
/-! ### find, free and cstate -/

/-- `find(r)` names the slot in use for `r`, if I-1 of 10_state.md R29 makes it the only one. -/
theorem State.find_eq_some_iff {s : State} {r : Addr} (hone : OneSlotPerPeer s.conn) (i : Nat) :
    s.find r = some i ↔ ∃ c, s.conn[i]? = some c ∧ c.state ≠ .disconnected ∧ c.remote = r := by
  constructor
  · intro h
    obtain ⟨c, hc, hlive, hr⟩ := State.find_eq_some h
    exact ⟨c, hc, (Slot.live_iff c).1 hlive, hr⟩
  · rintro ⟨c, hc, hs, hr⟩
    have hlive := (Slot.live_iff c).2 hs
    cases hf : s.find r with
    | none => exact absurd hr (State.find_eq_none hf c (List.mem_of_getElem? hc) hlive)
    | some j =>
      obtain ⟨d, hd, hdlive, hdr⟩ := State.find_eq_some hf
      rw [hone j i d c hd hc hdlive hlive (hdr.trans hr.symm)]

/-- `free()` is the least DISCONNECTED slot. -/
theorem State.free_eq_some_iff (s : State) (j : Nat) :
    s.free = some j ↔ (∃ c, s.conn[j]? = some c ∧ c.state = .disconnected) ∧
      ∀ k c, k < j → s.conn[k]? = some c → c.state ≠ .disconnected := by
  rw [State.free, List.findIdx?_eq_some_iff_getElem]
  constructor
  · rintro ⟨hj, hfree, hbelow⟩
    refine ⟨⟨s.conn[j], List.getElem?_eq_getElem hj, by simpa [Slot.live] using hfree⟩, fun k c hk hc => ?_⟩
    obtain ⟨hlt, rfl⟩ := List.getElem?_eq_some_iff.1 hc
    simpa [Slot.live] using hbelow k hk
  · rintro ⟨⟨c, hc, hs⟩, hbelow⟩
    obtain ⟨hj, rfl⟩ := List.getElem?_eq_some_iff.1 hc
    refine ⟨hj, by simpa [Slot.live] using hs, fun k hk => ?_⟩
    simpa [Slot.live] using hbelow k _ hk (List.getElem?_eq_getElem (hk.trans hj))

/-- Settles O22: `cstate` looks at the slot that `find` names. -/
theorem findAndFreeNameTheSlots : Obligations.FindAndFreeNameTheSlots := by
  refine fun s r => ⟨State.find_eq_some_iff, State.free_eq_some_iff s, fun i c hf hc => ?_, fun hf => ?_⟩
  · rw [State.cstate, hf]
    exact State.slotState_of_slot hc
  · rw [State.cstate, hf]

/-! ### The inbound handlers -/

/-- Settles O26: CONN_RX on a considered frame is `afterInbound`. -/
theorem connRxFollowsInboundMatrix : Obligations.ConnRxFollowsInboundMatrix := by
  intro s i c f hc hsender hreceiver
  have hcon : considered s c f = true := by rw [considered, decide_eq_true hsender, decide_eq_true hreceiver]; rfl
  exact connRxOp_of_considered hc hcon

/-- Settles O27: S2 in DISCONNECTED, nothing in the three other states. -/
theorem rxLinkOpensADisconnectedSlot : Obligations.RxLinkOpensADisconnectedSlot :=
  fun _ _ _ _ hc => ⟨rxLinkOp_of_disconnected hc, rxLinkOp_of_live hc⟩

/-- Settles O28: S3, S10, and the two states an ACK does not concern. -/
theorem rxAckCompletesAHandshake : Obligations.RxAckCompletesAHandshake :=
  fun _ _ _ f hc => ⟨fun hs => rxAckOp_of_connecting hc hs f, fun hs => rxAckOp_of_disconnecting hc hs f,
    fun hs => rxAckOp_of_settled hc hs f⟩

/-- Settles O29: S7 in CONNECTED, nothing in the three other states. -/
theorem rxUnlinkClosesAConnectedSlot : Obligations.RxUnlinkClosesAConnectedSlot :=
  fun _ _ _ _ hc => ⟨rxUnlinkOp_of_connected hc, rxUnlinkOp_of_not_connected hc⟩

/-- Settles O30: the two settings of `ACK_ON_DATA` in CONNECTED, and the three other states. -/
theorem rxDataDeliversInConnected : Obligations.RxDataDeliversInConnected := by
  refine fun s i c f hc => ⟨fun hs hack => ?_, fun hs hack => ?_, fun hs => rxDataOp_of_not_connected hc hs f⟩
  · exact (rxDataOp_of_connected hc hs f).trans (by rw [hack]; rfl)
  · exact (rxDataOp_of_connected hc hs f).trans (by rw [hack]; rfl)

/-- Settles O31: both handlers are the one that ignores the frame. -/
theorem retryRequestAndReservedTypesAreIgnored : Obligations.RetryRequestAndReservedTypesAreIgnored := by
  intro s i f hi
  obtain ⟨t, ht⟩ := rxIgnoreOp_answers (List.getElem?_eq_getElem hi)
  obtain rfl := rxIgnoreOp_next ht
  exact ⟨ht, ht⟩

/-! ### The host commands -/

/-- Settles O32: the peer's slot is looked for before a free one. -/
theorem cmdConnectOpensTheLeastFreeSlot : Obligations.CmdConnectOpensTheLeastFreeSlot := by
  refine fun s r => ⟨fun i c hf hc => ?_, execCmdConnect_of_full, fun j hf hj => ?_⟩
  · have hknown := execCmdConnect_of_known hf
    rw [State.slotState_of_slot hc] at hknown
    exact ⟨fun hs => hknown.trans (by rw [if_pos hs]; rfl), fun hs => hknown.trans (by rw [if_neg hs]; rfl)⟩
  · obtain ⟨c, hc, hs⟩ := State.free_eq_some hj
    exact execCmdConnect_of_free hf hj hc hs

/-- Settles O33: S6 at the slot that `find` names. -/
theorem cmdDisconnectStartsTheTeardown : Obligations.CmdDisconnectStartsTheTeardown := by
  refine fun s r => ⟨execCmdDisconnect_of_not_connected, fun i c hf hc hs => ?_⟩
  obtain ⟨-, rfl⟩ := State.slot_of_find hf hc
  exact execCmdDisconnect_of_connected hf hc hs

/-- Settles O34: the SEND row at the slot that `find` names. -/
theorem cmdSendEmitsOneDataFrame : Obligations.CmdSendEmitsOneDataFrame :=
  fun _ _ _ _ => ⟨execCmdSend_of_not_connected, fun _ _ => execCmdSend_of_connected⟩

/-- Settles O35: the ABORT row, as a slot that `find` names is in use. -/
theorem cmdAbortForcesDisconnected : Obligations.CmdAbortForcesDisconnected := by
  refine fun s r => ⟨execCmdAbort_of_unknown, fun i c hf hc => ?_⟩
  obtain ⟨hlive, rfl⟩ := State.slot_of_find hf hc
  exact execCmdAbort_of_live hf hc hlive

/-! ### RETRY, GIVE_UP and IDLE_DROP by themselves -/

section SlotActions

variable {s : State} {i : Nat} {c : Slot} (h : s.conn[i]? = some c)
include h

theorem exec_retry_of_slot : exec (.retry i) s = .next (retryOp s i c) := by
  change execRetry i s = _
  rw [execRetry, h]

theorem exec_giveUp_of_slot : exec (.giveUp i) s = .next (dropOp s i) := by
  change execGiveUp i s = _
  rw [execGiveUp, h]

theorem exec_idleDrop_of_slot : exec (.idleDrop i) s = .next (dropOp s i) := by
  change execIdleDrop i s = _
  rw [execIdleDrop, h]

theorem dropOp_of_disconnected (hs : c.state = .disconnected) : dropOp s i = s := by
  have hself : { c with state := .disconnected } = c := by rw [← hs]
  rw [dropOp, setConnState_eq_putSlot h, hself, if_neg (not_not_intro hs), putSlot_self h]

end SlotActions

/-- Settles O39: the pending frame is the LINK in CONNECTING and the UNLINK in DISCONNECTING. -/
theorem retryReemitsThePendingFrame : Obligations.RetryReemitsThePendingFrame := by
  refine fun s i c hc hn => ⟨fun hs => ?_, fun hs => ?_⟩
  · rw [exec_retry_of_slot hc, retryOp_of_pending hc (.inl hs) hn, pendingWire, if_pos hs]
    rfl
  · rw [exec_retry_of_slot hc, retryOp_of_pending hc (.inr hs) hn, pendingWire, if_neg (by simp [hs])]
    rfl

/-- Settles O40: both are SetState to DISCONNECTED. -/
theorem giveUpAndIdleDropOnlyDisconnect : Obligations.GiveUpAndIdleDropOnlyDisconnect := by
  intro s i c hc
  rw [exec_giveUp_of_slot hc, exec_idleDrop_of_slot hc]
  refine ⟨fun hs => ?_, fun hs => ?_⟩
  · rw [dropOp_of_live hc hs]
    exact ⟨rfl, rfl⟩
  · rw [dropOp_of_disconnected hc hs]
    exact ⟨rfl, rfl⟩

end Sys2Proof.Machine

/-! The exception family: a host command answers with its `Status`, and one that fails does nothing else
(60_exceptions.md R232). The shape of an answer (`CommandAnswer`) is said once and shown of each of the four commands
from its equations. -/

namespace Sys2Proof.Machine

/-- The two outcomes of a host command in state `s`: it is completed, its outputs end in the Status OK, or it is rejected
and reports that alone. -/
inductive CommandAnswer (s : State) : Out → Prop
  | completed {t : State} {os : List Output} (hlast : os.getLast? = some (.status .ok)) (hout : t.out = s.out ++ os) :
      CommandAnswer s (.next t)
  | rejected (e : Failure) : CommandAnswer s (.next { s with out := s.out ++ [.status (.failed e)] })

/-- An answer ends in its Status, and where that is a failure nothing else changed. -/
theorem CommandAnswer.last_status {s : State} {o : Out} (h : CommandAnswer s o) :
    ∃ t st, o = .next t ∧ t.out.getLast? = some (.status st) ∧
      ∀ e, st = .failed e → t = { s with out := s.out ++ [.status (.failed e)] } := by
  cases h with
  | @completed t os hlast hout =>
    have hok : t.out.getLast? = some (.status .ok) := by rw [hout, List.getLast?_append, hlast]; rfl
    exact ⟨t, .ok, rfl, hok, nofun⟩
  | rejected e => exact ⟨_, .failed e, rfl, List.getLast?_concat, fun _ hst => by cases hst; rfl⟩

theorem execCmdConnect_commandAnswer (r : Addr) (s : State) : CommandAnswer s (execCmdConnect r s) := by
  cases hf : s.find r with
  | some i =>
    rw [execCmdConnect_of_known hf]
    split
    · exact .rejected .alreadyConnected
    · exact .rejected .alreadyPending
  | none =>
    cases hj : s.free with
    | none =>
      rw [execCmdConnect_of_full hf hj]
      exact .rejected .noFreeSlot
    | some j =>
      obtain ⟨c, hc, hs⟩ := State.free_eq_some hj
      rw [execCmdConnect_of_free hf hj hc hs]
      exact .completed rfl rfl

theorem execCmdDisconnect_commandAnswer (r : Addr) (s : State) : CommandAnswer s (execCmdDisconnect r s) := by
  by_cases hst : s.cstate r = .connected
  · obtain ⟨i, c, hf, hc, hs, -⟩ := State.connected_slot hst
    rw [execCmdDisconnect_of_connected hf hc hs]
    exact .completed rfl rfl
  · rw [execCmdDisconnect_of_not_connected hst]
    exact .rejected .notConnected

theorem execCmdSend_commandAnswer (r : Addr) (payload : List Byte) (s : State) :
    CommandAnswer s (execCmdSend r payload s) := by
  by_cases hst : s.cstate r = .connected
  · obtain ⟨i, c, hf, hc, hs, -⟩ := State.connected_slot hst
    rw [execCmdSend_of_connected hf hc hs]
    exact .completed rfl rfl
  · rw [execCmdSend_of_not_connected hst]
    exact .rejected .notConnected

/-- CMD_ABORT has no failure. -/
theorem execCmdAbort_commandAnswer (r : Addr) (s : State) : CommandAnswer s (execCmdAbort r s) := by
  cases hf : s.find r with
  | none =>
    rw [execCmdAbort_of_unknown hf]
    exact .completed (os := [.status .ok]) rfl rfl
  | some i =>
    obtain ⟨c, hc, hlive, -⟩ := State.find_eq_some hf
    rw [execCmdAbort_of_live hf hc hlive]
    exact .completed rfl rfl

/-- Settles O36, by the answer of each of the four commands. -/
theorem rejectedCommandChangesNothing : Obligations.RejectedCommandChangesNothing := by
  rintro s r payload op (rfl | rfl | rfl | rfl)
  · exact (execCmdConnect_commandAnswer r s).last_status
  · exact (execCmdDisconnect_commandAnswer r s).last_status
  · exact (execCmdSend_commandAnswer r payload s).last_status
  · exact (execCmdAbort_commandAnswer r s).last_status

end Sys2Proof.Machine

/-! The reset family: what reset leaves, at power-up and as the event `rst` (70_reset_and_hazards.md R260, 10_state.md
R40). The event leaves what power-up does under the block's own configuration, but for the environment's time and
schedule (`State.applyReset`), so both rest on the same table of slots. -/

namespace Sys2Proof.Machine

/-- Every slot of the table that reset builds is DISCONNECTED, at power-up and as an event alike. -/
theorem Slot.disconnected_of_mem_resetTable {n : Nat} {c : Slot} (hc : c ∈ List.replicate n Slot.reset) :
    c.state = .disconnected := by
  rw [List.eq_of_mem_replicate hc, Slot.reset]

/-- `rst` with an address that is not the broadcast one brings every element to its reset value. -/
theorem takeInput_rst {a : Addr} (ha : a ≠ broadcast) (s : State) : takeInput (.rst a) s = .next (s.applyReset a) :=
  if_neg ha

/-- A step that takes such an `rst` resets the state with the event taken. -/
theorem step_rst {s : State} {e : Event} {rest : List Event} {a : Addr} (hc : s.configOk = true)
    (he : s.inputs = e :: rest) (ht : s.time ≤ e.time) (hin : e.input = .rst a) (ha : a ≠ broadcast) :
    step s = .next ((s.taking e rest).applyReset a) := by
  rw [step_take hc he ht, hin, takeInput_rst ha]

/-- Settles O48: each stated element by its reset value, and the event by `step_rst`. -/
theorem resetLeavesTheStatedValues : Obligations.ResetLeavesTheStatedValues := by
  constructor
  · intro cfg a
    exact ⟨rfl, rfl, rfl, rfl, rfl, List.length_replicate, fun _ => Slot.disconnected_of_mem_resetTable⟩
  · intro s e rest a hc he ht hin ha
    exact ⟨_, step_rst hc he ht hin ha, rfl, rfl, rfl, rfl, rfl, List.length_replicate,
      fun _ => Slot.disconnected_of_mem_resetTable, rfl, rfl⟩

end Sys2Proof.Machine

/-! The rest: what CONN_RX hands a frame to (45_connection_fsm.md R171), the invariants at reset (10_state.md R29),
the words of the agents' ports (30_encoding.md R84, R86), what a step does when it runs no operation (00_scope.md R7, R14),
and the internal steps outside their domain (10_state.md R31, R40). -/

namespace Sys2Proof.Machine

/-! ### CONN_RX runs the handler of the TYPE -/

/-- A frame is considered when it is from the slot's peer to this node (45_connection_fsm.md R171). -/
theorem considered_iff {s : State} {c : Slot} {f : RxFrame} :
    considered s c f = true ↔ f.sender8 = addrByte c.remote ∧ f.receiver8 = addrByte s.localAddr := by
  rw [considered, Bool.and_eq_true, decide_eq_true_iff, decide_eq_true_iff]

/-- The handler is the one the decoder reads from an inbound frame's bytes (30_encoding.md R76). -/
theorem exec_connRx_eq_handlerOf {s : State} {i : Nat} {c : Slot} {f : RxFrame} (hc : s.conn[i]? = some c)
    (hcon : considered s c f = true) : exec (.connRx i f) s = exec (handlerOf i f) s := by
  change connRxOp s i f = _
  rw [connRxOp, hc]
  dsimp only
  rw [if_pos hcon, handlerOf]
  split_ifs with hdata hlink hunlink hack hretry <;> rfl

/-- Settles O25: a considered frame goes to the handler of its TYPE, and any other is ignored. -/
theorem connRxRunsTheHandlerOfTheType : Obligations.ConnRxRunsTheHandlerOfTheType := by
  refine fun s i c f hc => ⟨fun hsender hreceiver => ?_, fun hother => ?_⟩
  · rw [exec_connRx_eq_handlerOf hc (considered_iff.mpr ⟨hsender, hreceiver⟩)]
    refine ⟨fun ht => ?_, fun ht => ?_, fun ht => ?_, fun ht => ?_, fun ht => ?_, fun ht => ?_⟩
    · rw [handlerOf_data i ht]
    · rw [handlerOf_link i ht]
    · rw [handlerOf_unlink i ht]
    · rw [handlerOf_ack i ht]
    · rw [handlerOf_retryRequest i ht]
    · have hreserved : reservedType f.type8 = true := by
        rwa [reservedType, Bool.or_eq_true, decide_eq_true_iff, decide_eq_true_iff]
      rw [handlerOf_reserved i hreserved]
  · have hcon : ¬ considered s c f = true := fun h => not_and_or.mpr hother (considered_iff.mp h)
    exact connRxOp_of_not_considered hc (Bool.eq_false_iff.mpr hcon)

/-! ### The invariants at reset -/

theorem State.configOk_iff (s : State) : s.configOk = true ↔ s.cfg.valid = true ∧ s.localAddr ≠ broadcast := by
  rw [State.configOk, Bool.and_eq_true, decide_eq_true_iff]

/-- The event `rst` does nothing to a block just reset, so what it establishes holds at power-up too. -/
theorem applyReset_resetWith (cfg : Config) (a : Addr) : (State.resetWith cfg a).applyReset a = State.resetWith cfg a := rfl

/-- Settles O49: the buffer is empty, the table is the one `rst` builds, and no event is to come. -/
theorem invariantsHoldAfterReset : Obligations.InvariantsHoldAfterReset := fun cfg a hcfg ha =>
  { config := (State.configOk_iff _).mpr ⟨hcfg, ha⟩
    buffer := .cleared (reset_wf cfg a) rfl
    table := applyReset_resetWith cfg a ▸ .applyReset (State.resetWith cfg a) a
    events := rfl }

/-! ### Steps that run no operation -/

section NoOperation

variable {s : State} {e : Event} {rest : List Event}

theorem step_of_bad_configuration (h : s.cfg.valid = false ∨ s.localAddr = broadcast) :
    step s = .refused .badConfiguration := by
  refine if_neg fun hok => ?_
  obtain ⟨hvalid, haddr⟩ := s.configOk_iff.mp hok
  rcases h with hbad | hbad
  · rw [hbad] at hvalid
    cases hvalid
  · exact haddr hbad

theorem step_late (hc : s.configOk = true) (he : s.inputs = e :: rest) (ht : e.time < s.time) :
    step s = .refused .timeWentBack := by
  rw [step, if_pos hc, he]
  exact if_pos ht

theorem takeInput_rst_broadcast (s : State) : takeInput (.rst broadcast) s = .refused .badConfiguration := by
  rw [takeInput, if_pos rfl]

theorem takeInput_noEvent {p : Presented} (hd : decode s.cfg p = .noEvent) : takeInput (.word p) s = .next s := by
  rw [takeInput, hd]

theorem takeInput_reject {p : Presented} {x : DecodeError} (hd : decode s.cfg p = .reject x) :
    takeInput (.word p) s = .refused (.rejected x) := by
  rw [takeInput, hd]

end NoOperation

/-- Settles O55, one rule of `step` or of `takeInput` for each clause. -/
theorem stepOutsideAnOperation : Obligations.StepOutsideAnOperation := by
  refine fun s => ⟨step_of_bad_configuration, step_idle, fun e rest hc he =>
    ⟨step_late hc he, fun ht hin => ?_, fun p ht hin => ⟨fun hd => ?_, fun x hd => ?_⟩⟩⟩
  · rw [step_take hc he ht, hin, takeInput_rst_broadcast]
  · rw [step_take hc he ht, hin]
    exact takeInput_noEvent hd
  · rw [step_take hc he ht, hin]
    exact takeInput_reject hd

/-! ### Internal steps outside their domain -/

/-- The buffer has no byte for the index `fa_count` names (10_state.md R26). -/
theorem exec_faPush_of_no_room {s : State} (h : frameMax ≤ s.faCount.toNat) (d : Byte) :
    exec (.faPush d) s = .fault (.noSuchBufferByte s.faCount.toNat) := by
  change faPushOp s d = _
  rw [faPushOp, memWrite_of_ge _ _ h]

/-- From the sixth byte on FA_PUSH reads LENGTH, which the store of that byte does not write (10_state.md R40). -/
theorem exec_faPush_of_unwritten_length {s : State} (h5 : 5 ≤ s.faCount.toNat) (hroom : s.faCount.toNat < frameMax)
    (hlen : bufRead s.faBuf 4 = none) (d : Byte) : exec (.faPush d) s = .fault (.unwrittenByte 4) := by
  have hcount : 5 ≤ (s.faCount + 1).toNat := by
    dsimp only [frameMax] at hroom
    bv_omega
  have hstill : bufRead (bufInsert s.faBuf s.faCount.toNat d) 4 = none := by
    rw [bufRead_bufInsert_other _ _ (by omega), hlen]
  change faPushOp s d = _
  rw [faPushOp, memWrite_of_lt _ _ hroom]
  dsimp only
  rw [if_pos hcount, hstill]

section NoSuchSlot

variable {s : State} {i : Nat} (h : s.conn[i]? = none)
include h

theorem connRxOp_of_no_slot (f : RxFrame) : connRxOp s i f = .fault (.noSuchSlot i) := by
  rw [connRxOp, h]

theorem rxDataOp_of_no_slot (f : RxFrame) : rxDataOp s i f = .fault (.noSuchSlot i) := by
  rw [rxDataOp, h]

theorem rxLinkOp_of_no_slot : rxLinkOp s i = .fault (.noSuchSlot i) := by
  rw [rxLinkOp, h]

theorem rxUnlinkOp_of_no_slot : rxUnlinkOp s i = .fault (.noSuchSlot i) := by
  rw [rxUnlinkOp, h]

theorem rxAckOp_of_no_slot (f : RxFrame) : rxAckOp s i f = .fault (.noSuchSlot i) := by
  rw [rxAckOp, h]

theorem rxIgnoreOp_of_no_slot : rxIgnoreOp s i = .fault (.noSuchSlot i) := by
  rw [rxIgnoreOp, h]

theorem execRetry_of_no_slot : execRetry i s = .fault (.noSuchSlot i) := by
  rw [execRetry, h]

theorem execGiveUp_of_no_slot : execGiveUp i s = .fault (.noSuchSlot i) := by
  rw [execGiveUp, h]

theorem execIdleDrop_of_no_slot : execIdleDrop i s = .fault (.noSuchSlot i) := by
  rw [execIdleDrop, h]

end NoSuchSlot

/-- RETRY outside its condition (45_connection_fsm.md R184). -/
theorem retryOp_of_not_pending {s : State} {c : Slot} (i : Nat)
    (h : ¬ ((c.state = .connecting ∨ c.state = .disconnecting) ∧ c.retryCount.toNat < s.cfg.maxRetries)) :
    retryOp s i c = s := if_neg h

/-- Settles O56: the two faults of FA_PUSH, the missing slot of each internal step, and RETRY's guard. -/
theorem internalStepsOutsideTheirDomain : Obligations.InternalStepsOutsideTheirDomain := by
  refine fun s d i f => ⟨fun hfull => exec_faPush_of_no_room hfull d,
    fun h5 hroom hlen => exec_faPush_of_unwritten_length h5 hroom hlen d, fun hi => ?_, fun c hc hn => ?_⟩
  · have hnone : s.conn[i]? = none := List.getElem?_eq_none hi
    exact ⟨connRxOp_of_no_slot hnone f, rxDataOp_of_no_slot hnone f, rxLinkOp_of_no_slot hnone,
      rxUnlinkOp_of_no_slot hnone, rxAckOp_of_no_slot hnone f, rxIgnoreOp_of_no_slot hnone, rxIgnoreOp_of_no_slot hnone,
      execRetry_of_no_slot hnone, execGiveUp_of_no_slot hnone, execIdleDrop_of_no_slot hnone⟩
  · rw [exec_retry_of_slot hc, retryOp_of_not_pending i hn]

end Sys2Proof.Machine

namespace Sys2Proof

open Machine

/-! ### The words of the agents' ports -/

/-- With an even `cmd_op` the second byte of the word is the address (30_encoding.md R84). -/
theorem cmdWord_even (k : Nat) (r : Addr) : cmdWord (2 * k) r = [BitVec.ofNat 8 k, addrByte r] := by
  have hhi : 2 * k / 2 = k := by omega
  have hlo : 128 * (2 * k % 2) = 0 := by omega
  rw [cmdWord, hhi, hlo]
  exact congrArg (fun b => [BitVec.ofNat 8 k, b]) (BitVec.zero_add (addrByte r))

/-- With an odd `cmd_op` its low bit stands above the address. -/
theorem cmdWord_odd (k : Nat) (r : Addr) : cmdWord (2 * k + 1) r = [BitVec.ofNat 8 k, 0x80 + addrByte r] := by
  have hhi : (2 * k + 1) / 2 = k := by omega
  have hlo : 128 * ((2 * k + 1) % 2) = 128 := by omega
  rw [cmdWord, hhi, hlo]
  rfl

theorem decodeCmd_even {k : Nat} (hk : k < 4) (r : Addr) (rest : List Byte) :
    decodeCmd ([BitVec.ofNat 8 k, addrByte r] ++ rest) = commandOf (2 * k) r rest := by
  rw [← cmdWord_even, decodeCmd_cmdWord (by omega)]

theorem decodeCmd_odd {k : Nat} (hk : k < 4) (r : Addr) (rest : List Byte) :
    decodeCmd ([BitVec.ofNat 8 k, 0x80 + addrByte r] ++ rest) = commandOf (2 * k + 1) r rest := by
  rw [← cmdWord_odd, decodeCmd_cmdWord (by omega)]

/-- Settles O59: RXP and TICK by the bits the decoder looks at, CMD by `cmd_op` in order of the word's first byte. -/
theorem portWordsDecodeAsTheSpecPrints : Obligations.PortWordsDecodeAsTheSpecPrints := by
  intro cfg slot b r payload rest
  have hsend : payload.length ≤ lengthMax →
      decodeCmd ([0x01, 0x80 + addrByte r] ++ lengthByte payload :: payload) = .instr (.cmdSend r payload) :=
    fun hlen => (decodeCmd_odd (k := 1) (by decide) r _).trans (decodeSend_lengthByte r hlen)
  exact ⟨rfl, rfl, rfl, rfl, decodeCmd_odd (k := 0) (by decide) r rest, decodeCmd_even (k := 1) (by decide) r rest, hsend,
    decodeCmd_even (k := 2) (by decide) r rest, decodeCmd_even (k := 0) (by decide) r rest,
    decodeCmd_odd (k := 2) (by decide) r rest, decodeCmd_even (k := 3) (by decide) r rest,
    decodeCmd_odd (k := 3) (by decide) r rest, rfl, rfl⟩

end Sys2Proof
